-- ==== Sys2Proof/Word.lean ====
section
/-! DEFINITION. The nonet, the word and the block (R4, R5), and their plainest arithmetic. -/

namespace Sys2Proof

/-- A nonet: 9 bits, the unit of storage (R4). -/
abbrev Nonet := BitVec 9

/-- A word: 8 nonets, 72 bits (R4). -/
abbrev Word := BitVec 72

/-- An N36, I36 or U36 value (R14). -/
abbrev Val36 := BitVec 36

/-- Nonets per word (R4). -/
def wordNt : Nat := 8

/-- Nonets per block (R4). -/
def blockNt : Nat := 64

end Sys2Proof
end

