-- ==== Sys2Proof/Syntax.lean ====
section
/-! DEFINITION. The commands of the block: one constructor per row of spec/opcode_table.json, with the operands the row
carries. An engine instruction carries the core that issues it, its wait and signal, and its operand fields as the
instruction word holds them (R75); every other row carries what the outside world brings with the event. -/

namespace Sys2Proof

/-- The wait and signal fields of an instruction word, nonets 6 and 5 (R75). -/
structure Ctl where
  sched : Bool
  wkind : BitVec 2
  wid : BitVec 6
  skind : BitVec 2
  sid : BitVec 6
  deriving DecidableEq, Repr

/-- A nonet with its poison mark, as data carries it (R106). -/
structure PNt where
  v : Nonet
  p : Bool
  deriving DecidableEq, Repr

/-- A block of a checked read that failed its check (R255, R257): its number among the blocks of the read, whether it failed again when it was
read again, and whether its mirror block failed too. -/
structure BadBlock where
  block : Nat
  again : Bool
  mirror : Bool
  deriving DecidableEq, Repr

/-- What a checked memory access met (R255, R257): nothing; a read the source refused (R271); blocks that failed their check. -/
inductive ReadFault where
  | none | refused
  | failed (blocks : List BadBlock)
  deriving DecidableEq, Repr

/-- A grant word that lands (R246); a stale one was sent in an attempt that has failed since (R247). -/
structure GrantWord where
  word : Word
  stale : Bool
  deriving DecidableEq, Repr

/-- How a port has retrained (R359, R370): by the fast retrain or by the full one after it, and the one-way latency in ps that calibration then measured. -/
structure RetrainNews where
  fast : Bool
  picos : Nat
  deriving DecidableEq, Repr

/-- What a REMOUNT flit says (R445): the replay time where the coordinator sends it; whether an error led to it, and the groups to widen. -/
structure RemountNews where
  at_ : Nat
  err : Bool
  groups : List Nat
  deriving DecidableEq, Repr

/-- The octets of a SEND of the host, and whether its packet carries a CE mark (R382, R389). -/
structure HostSend where
  octets : List (BitVec 8)
  ce : Bool
  deriving DecidableEq, Repr

/-- What a PFC frame says of a priority: the time for which it pauses it, in quanta of 512 bit times, where 0 ends the pause (R380; IEEE 802.1Qbb). -/
structure PfcNews where
  prio : Nat
  quanta : Nat
  deriving DecidableEq, Repr

/-- The octets that an RDMA write brings, what the checks of the blocks it writes in part meet (R257, R397), and whether its packets carry a CE mark
(R382). -/
structure RdmaBody where
  octets : List (BitVec 8)
  fault : ReadFault
  ce : Bool
  deriving DecidableEq, Repr

/-- The octets that an RDMA read asks for, what the checks of their blocks meet (R255, R257, R397), and whether its packet carries a CE mark (R382). -/
structure RdmaSpan where
  len : Nat
  fault : ReadFault
  ce : Bool
  deriving DecidableEq, Repr

/-- The program errors, in the order of the table of R419. -/
inductive PErr where
  | illegalOpcode | illegalEncoding | illegalLoop
  | illegalTile | illegalMve | illegalVe | illegalSize
  | illegalCoupling
  | scratchConflict | protectedWrite
  | ringOverflow | ringUnderflow
  | opeConflict | tqOverflow | tqUnderflow
  | rqOverflow | rqUnderflow
  | queueBusy | queueUnderflow | lightOverflow
  | illegalChannel
  | addressError
  | controlWindow | poisonedControl
  | readBeforeWrite
  | credit
  | channelUnderflow | combineUnderflow
  | channelDeadlock
  | scheduleSlip
  deriving DecidableEq, Repr

/-- A merged summary of one format group, as STEP_DONE carries it (R209, R440), with the group's FMT and MAXFMT on the chip that sends it
(log 130). -/
structure GroupSummary where
  group : Nat
  any : Bool
  nonfin : Bool
  top : Int
  low : Int
  fmt : Nat
  maxfmt : Nat
  deriving DecidableEq, Repr

/-- The merged format result of one group, as COMMIT carries it (R210, R440); `low` says that MAXFMT lowered the choice. -/
structure GroupResult where
  group : Nat
  fmt : Nat
  scale : Int
  low : Bool
  deriving DecidableEq, Repr

/-- What STEP_DONE brings (R438, R440): the merged pending words, whether an SE of the member has issued its STEP, and whether every engine of it is
Halted or Off. -/
structure DoneNews where
  summaries : List GroupSummary
  stepped : Bool
  ended : Bool
  deriving DecidableEq, Repr

/-- What COMMIT brings (R87, R440): the merged format result, and whether the step is the program's last. -/
structure CommitNews where
  results : List GroupResult
  last : Bool
  deriving DecidableEq, Repr

/-- A Jizia flit: a header word, eight payload words and a trailer word (R355, R356). -/
structure Flit where
  header : Word
  payload : List Word
  trailer : Word
  deriving DecidableEq, Repr

/-- Where an Irair frame arrived (R503): at a node of the segment, or at a host port with a VLAN tag and an IPv6 address; and the UDP port it names. -/
inductive Endpoint where
  | segment (toNode udp : Nat)
  | inband (port vlan addr udp : Nat)
  deriving DecidableEq, Repr

/-- An Irair request frame (R504). `total` is the length of the datagram in octets. The operation is the command's. -/
structure Frame where
  ep : Endpoint
  total : Nat
  magic : Nat
  version : Nat
  kind : Nat
  status : Nat
  flags : Nat
  frag : Nat
  session : Nat
  seq : Nat
  reqId : Nat
  length : Nat
  payload : List (BitVec 8)
  tag : Nat
  deriving DecidableEq, Repr

/-- What REGISTER_WRITE names: a dictionary entry written by a session, or an offset of a core's control block written by
the host or by Irair (R51, R499). -/
inductive RegTarget where
  | entry (session index sub : Nat)
  | control (core off : Nat)
  deriving DecidableEq, Repr

/-- The instructions of the TAP (R573), and a code it does not implement. -/
inductive TapInstr where
  | bypass | idcode | samplePreload | extest | clamp | highz | other
  deriving DecidableEq, Repr

/-- The commands, one per row of the table. -/
inductive Instr where
  /-- NOP (R77): Any engine issues NOP, which does nothing except apply its signal in its issue cycle. -/
  | nop (core eng : Nat) (ctl : Ctl)
  /-- HALT (R87): An engine issues HALT, ends its stream and goes to Halted once all of its issued instructions have completed. -/
  | halt (core eng : Nat) (ctl : Ctl)
  /-- LOOP (R83): An engine issues LOOP, latches the count register and runs its body that many times, or skips the body when the count is zero. -/
  | loop (core eng : Nat) (ctl : Ctl) (lc : BitVec 3) (body : BitVec 9)
  /-- INSTRUCTION_AT_HEAD (R578): An instruction reaches the head of its engine's queue; the engine checks opcode, encoding and wait coupling, then holds it until its wait is satisfied. -/
  | instructionAtHead (core eng : Nat)
  /-- COMPLETION_CYCLE (R55): An issued instruction reaches its completion cycle and applies its signal: set flag, increment counter or release ring slot. -/
  | completionCycle (core : Nat)
  /-- FLAG_TIMEOUT (R63): A wait stays unsatisfied longer than wait_timeout and raises a flag timeout, which is a remount trigger. -/
  | flagTimeout (core eng : Nat)
  /-- SLIP_LIMIT_EXCEEDED (R62): In Locked mode, the step slip cycles of a core exceed slip_limit and the program stops with a schedule-slip program error. -/
  | slipLimitExceeded (core : Nat)
  /-- ADD (R96): The SE adds two registers. -/
  | add (core : Nat) (ctl : Ctl) (d a b : BitVec 5)
  /-- SUB (R96): The SE subtracts two registers. -/
  | sub (core : Nat) (ctl : Ctl) (d a b : BitVec 5)
  /-- AND (R96): The SE forms the bitwise and of two registers. -/
  | and (core : Nat) (ctl : Ctl) (d a b : BitVec 5)
  /-- OR (R96): The SE forms the bitwise or of two registers. -/
  | or (core : Nat) (ctl : Ctl) (d a b : BitVec 5)
  /-- XOR (R96): The SE forms the bitwise exclusive-or of two registers. -/
  | xor (core : Nat) (ctl : Ctl) (d a b : BitVec 5)
  /-- SHL (R96): The SE shifts a register left by a register amount. -/
  | shl (core : Nat) (ctl : Ctl) (d a b : BitVec 5)
  /-- SHR (R96): The SE shifts a register right by a register amount with zero fill. -/
  | shr (core : Nat) (ctl : Ctl) (d a b : BitVec 5)
  /-- SRA (R96): The SE shifts a register right by a register amount with sign fill. -/
  | sra (core : Nat) (ctl : Ctl) (d a b : BitVec 5)
  /-- CMPLT (R96): The SE compares two registers as signed integers. -/
  | cmplt (core : Nat) (ctl : Ctl) (d a b : BitVec 5)
  /-- CMPLTU (R96): The SE compares two registers as unsigned integers. -/
  | cmpltu (core : Nat) (ctl : Ctl) (d a b : BitVec 5)
  /-- CMPEQ (R96): The SE compares two registers for equality. -/
  | cmpeq (core : Nat) (ctl : Ctl) (d a b : BitVec 5)
  /-- MUL (R96): The SE writes the low 72 bits of the product of two registers, with L = 3. -/
  | mul (core : Nat) (ctl : Ctl) (d a b : BitVec 5)
  /-- ADDI (R96): The SE adds a signed immediate to a register. -/
  | addi (core : Nat) (ctl : Ctl) (d a : BitVec 5) (imm : BitVec 35)
  /-- ANDI (R96): The SE ands a register with a sign-extended immediate. -/
  | andi (core : Nat) (ctl : Ctl) (d a : BitVec 5) (imm : BitVec 35)
  /-- SHLI (R96): The SE shifts a register left by an immediate. -/
  | shli (core : Nat) (ctl : Ctl) (d a : BitVec 5) (imm : BitVec 7)
  /-- SHRI (R96): The SE shifts a register right by an immediate with zero fill. -/
  | shri (core : Nat) (ctl : Ctl) (d a : BitVec 5) (imm : BitVec 7)
  /-- MOVI (R96): The SE writes a sign-extended 40-bit immediate to a register. -/
  | movi (core : Nat) (ctl : Ctl) (d : BitVec 5) (imm : BitVec 40)
  /-- MOVH (R96): The SE replaces bits [71:40] of a register with an immediate. -/
  | movh (core : Nat) (ctl : Ctl) (d : BitVec 5) (imm : BitVec 32)
  /-- LD (R97): The SE loads a word from its own scratchpad into a register, copying the word's poison mark. -/
  | ld (core : Nat) (ctl : Ctl) (d a : BitVec 5) (imm : BitVec 35)
  /-- ST (R97): The SE stores a register, with its poison bit, to a word of its own scratchpad. -/
  | st (core : Nat) (ctl : Ctl) (d a : BitVec 5) (imm : BitVec 35)
  /-- CWR (R98): The SE reads a word of its own core control block into a register. -/
  | cwr (core : Nat) (ctl : Ctl) (d a : BitVec 5) (imm : BitVec 35)
  /-- CWW (R98): The SE writes a permitted word of its own core control block; the write decides the value at the end of the cycle. -/
  | cww (core : Nat) (ctl : Ctl) (d a : BitVec 5) (imm : BitVec 35)
  /-- STEP (R100): The SE marks a step boundary and issues nothing more until the step has committed. -/
  | step (core : Nat) (ctl : Ctl)
  /-- COPY (R102): The TE copies between its own scratchpad and the near stack over its core, or between two scratchpad locations, on a static path. -/
  | copy (core : Nat) (ctl : Ctl) (dst src : BitVec 5) (dring incd incs : Bool) (size : BitVec 26)
  /-- LOADQ (R271): The TE starts a load from far memory or a remote scratchpad into an Empty decoupling queue, which becomes Busy. -/
  | loadq (core : Nat) (ctl : Ctl) (src : BitVec 5) (queue : BitVec 4) (incs : Bool) (size : BitVec 11)
  /-- STORE (R102): The TE sends data from its own scratchpad to far memory or to a remote scratchpad. -/
  | store (core : Nat) (ctl : Ctl) (dst src : BitVec 5) (incd incs : Bool) (size : BitVec 26)
  /-- MCAST (R283): The TE sends one copy of a tile to every core of a multicast set. -/
  | mcast (core : Nat) (ctl : Ctl) (dst src : BitVec 5) (mset : BitVec 6) (size : BitVec 26)
  /-- LIGHT (R285): The TE queues fewer than 64 nt for a core of the same chip on the light path. -/
  | light (core : Nat) (ctl : Ctl) (src : BitVec 5) (dcore : BitVec 8) (size : BitVec 6)
  /-- QLAND (R272): The TE copies a Ready decoupling queue into its own scratchpad or into a ring slot on the local copy path, and the queue becomes Empty. -/
  | qland (core : Nat) (ctl : Ctl) (dst : BitVec 5) (queue : BitVec 4) (dring incd : Bool)
  /-- SEND_START (R280): A STORE, MCAST, LIGHT or ME send starts its source read once the previous send's read has ended and, for a static flow, its frame position arrives. -/
  | sendStart (core : Nat)
  /-- OUTBOUND_STALL (R281): A send that would start without room for its data in the outbound buffer stalls every core of the program. -/
  | outboundStall (core : Nat)
  /-- OUTBOUND_ROOM (R281): Room appears in the outbound buffer and the outbound stall ends in the next cycle. -/
  | outboundRoom (core nt : Nat)
  /-- REGULATOR_RELEASE (R278): A request of a regulator class leaves once TOKENS is at least its size, and its size is subtracted. -/
  | regulatorRelease (core cls : Nat)
  /-- QUEUE_DATA_LAND (R271): Data of a LOADQ request lands in its decoupling queue; failed or refused data lands poisoned and sets ERR. -/
  | queueDataLand (core queue req : Nat) (fault : ReadFault) (ext : List PNt)
  /-- STORE_LANDED (R282): The last nonet of a STORE lands at its destination and the STORE completes. -/
  | storeLanded (core tid : Nat) (fault : ReadFault) (refused : Option PErr)
  /-- MCAST_COPY_LAND (R283): The last nonet of a multicast copy lands at a destination core and increments that core's named counter. -/
  | mcastCopyLand (core tid dest : Nat)
  /-- LIGHT_SLOT_SEND (R285): A queued LIGHT payload enters its core's light-path slot, and the LIGHT completes. -/
  | lightSlotSend (core : Nat)
  /-- LIGHT_LANDING (R286): A light payload lands in the sender's mailbox at the destination and increments COUNTER, or is dropped and sets LREFUSED. -/
  | lightLanding (core src : Nat)
  /-- BACKGROUND_ACCESS (R229): A remote, host, write-back or scrubber access to a scratchpad is served through the core's background slot. -/
  | backgroundAccess (core : Nat) (write : Bool) (off len : Nat) (data : List PNt)
  /-- CREDIT_GRANT (R246): A remote grant word lands at the sender's grant offset, adds to CREDIT and may increment a counter, or is refused. -/
  | creditGrant (core idx : Nat) (word : GrantWord)
  /-- OSET (R114): The OPE sets one of its eight operand descriptors. -/
  | oset (core : Nat) (ctl : Ctl) (s : BitVec 3) (h : BitVec 6) (orient turn half : Bool) (start : BitVec 16)
  /-- OMASK (R121): The OPE loads the 144-bit row mask from two words of a handle. -/
  | omask (core : Nat) (ctl : Ctl) (h : BitVec 6) (off : BitVec 16)
  /-- MMA (R119): The OPE streams K operand pairs through the full array into the live set, with an optional swap, drain and clear. -/
  | mma (core : Nat) (ctl : Ctl) (sa sb : BitVec 3) (m n : BitVec 8) (k : BitVec 16) (rnd msk : Bool) (swd : BitVec 2)
  /-- MMAQ (R129): The OPE streams up to four independent quadrant problems at once. -/
  | mmaq (core : Nat) (ctl : Ctl) (qmask : BitVec 4) (m n : BitVec 7) (k : BitVec 16) (rnd msk : Bool) (swd : BitVec 2)
  /-- SWAP (R123): The OPE exchanges the live and shadow sets, optionally draining and clearing the set that becomes shadow. -/
  | swap (core : Nat) (ctl : Ctl) (drn clr last : Bool)
  /-- OCLR (R125): The OPE zeroes the shadow set with its poison bits, update indexes and checksum registers. -/
  | oclr (core : Nat) (ctl : Ctl)
  /-- PRELOAD (R126): The OPE loads the shadow set row by row from scratchpad. -/
  | preload (core : Nat) (ctl : Ctl) (h : BitVec 6) (start : BitVec 16) (m : BitVec 8)
  /-- DRAIN_ROW (R124): A row of a draining set enters the tile queue, is optionally cleared, and its checksum comparison follows. -/
  | drainRow (core : Nat)
  /-- MCFG (R146): The MVE sets the stream configuration: weight format, scale, lanes and first held element. -/
  | mcfg (core : Nat) (ctl : Ctl) (fmt : BitVec 2) (scale : BitVec 9) (lanes : BitVec 7) (estart : BitVec 12)
  /-- HLOAD (R147): The MVE loads elements of a held vector from a plain scratchpad handle. -/
  | hload (core : Nat) (ctl : Ctl) (v : BitVec 3) (h : BitVec 6) (eoff n : BitVec 12) (soff : BitVec 11)
  /-- MSTREAM (R148): The MVE streams weight groups from the near stack past the held vectors that take part. -/
  | mstream (core : Nat) (ctl : Ctl) (areg : BitVec 5) (inc : Bool) (vsel : BitVec 3) (solo : Bool) (k : BitVec 12) (rnd emit : Bool)
  /-- MSTREAM_GROUP_ADD (R151): A weight group lands and its adds fall into the accumulators of the vectors that take part. -/
  | mstreamGroupAdd (core : Nat)
  /-- EMISSION (R153): After an EMIT stream, the accumulators of the vectors that take part enter the result queue, and the checksum lane is compared. -/
  | emission (core : Nat)
  /-- MPOP (R154): The MVE converts and writes the head result-queue entry to scratchpad, then releases it. -/
  | mpop (core : Nat) (ctl : Ctl) (h : BitVec 6) (off : BitVec 11) (n : BitVec 7) (rnd : Bool)
  /-- VCFG (R171): The VE sets format, rounding, mask, length or count source, and segment size. -/
  | vcfg (core : Nat) (ctl : Ctl) (fmt : BitVec 2) (rnd msk : Bool) (mslot : BitVec 11) (len : BitVec 16) (lcnt : Bool) (seg : BitVec 12)
  /-- VPTR (R172): The VE sets a pointer register. -/
  | vptr (core : Nat) (ctl : Ctl) (p : BitVec 3) (h : BitVec 6) (orient : Bool) (off : BitVec 23)
  /-- VLD (R174): The VE loads a slot from a handle, converting it to FMT. -/
  | vld (core : Nat) (ctl : Ctl) (slot : BitVec 11) (ptr : BitVec 3) (inc : Bool)
  /-- VST (R174): The VE stores a slot to a handle with the scale on store, optionally collecting statistics. -/
  | vst (core : Nat) (ctl : Ctl) (slot : BitVec 11) (ptr : BitVec 3) (inc sen : Bool) (sb : BitVec 4)
  /-- TQRD (R175): The VE reads tile-queue rows into a slot, optionally releasing the oldest entry. -/
  | tqrd (core : Nat) (ctl : Ctl) (slot : BitVec 11) (row nrows : BitVec 8) (ent : BitVec 2) (rel : Bool)
  /-- RQRD (R175): The VE reads a result-queue entry into a slot, optionally releasing it. -/
  | rqrd (core : Nat) (ctl : Ctl) (slot : BitVec 11) (ent : BitVec 3) (rel : Bool)
  /-- TBW (R176): The VE writes rows of a slot into a turn-buffer half, optionally tagging the half. -/
  | tbw (core : Nat) (ctl : Ctl) (slot : BitVec 11) (half : Bool) (row nrows : BitVec 8) (tf : BitVec 2) (sc : BitVec 9) (tag sen : Bool) (sb : BitVec 4)
  /-- VADD (R177): The VE adds two slots element by element. -/
  | vadd (core : Nat) (ctl : Ctl) (d a b : BitVec 11) (bseg : Bool)
  /-- VSUB (R177): The VE subtracts two slots. -/
  | vsub (core : Nat) (ctl : Ctl) (d a b : BitVec 11) (bseg : Bool)
  /-- VMUL (R177): The VE multiplies two slots. -/
  | vmul (core : Nat) (ctl : Ctl) (d a b : BitVec 11) (bseg : Bool)
  /-- VMAX (R177): The VE takes the element maximum of two slots. -/
  | vmax (core : Nat) (ctl : Ctl) (d a b : BitVec 11) (bseg : Bool)
  /-- VMIN (R177): The VE takes the element minimum of two slots. -/
  | vmin (core : Nat) (ctl : Ctl) (d a b : BitVec 11) (bseg : Bool)
  /-- VFMA (R177): The VE forms A × B + C rounded once. -/
  | vfma (core : Nat) (ctl : Ctl) (d a b c : BitVec 11) (bseg : Bool)
  /-- VCMP (R177): The VE writes a mask slot from a comparison of two slots. -/
  | vcmp (core : Nat) (ctl : Ctl) (d a b : BitVec 11) (cond : BitVec 2) (bseg : Bool)
  /-- VSEL (R177): The VE selects from A or B by a mask slot. -/
  | vsel (core : Nat) (ctl : Ctl) (d a b c : BitVec 11) (bseg : Bool)
  /-- VMOV (R177): The VE moves or broadcasts a slot. -/
  | vmov (core : Nat) (ctl : Ctl) (d a b : BitVec 11) (bseg : Bool)
  /-- VCVT (R178): The VE converts a slot to a target format, with a scale for N9 and N9e. -/
  | vcvt (core : Nat) (ctl : Ctl) (d a : BitVec 11) (tf : BitVec 2) (sc : BitVec 9) (sen : Bool) (sb : BitVec 4)
  /-- VRED (R179): The VE reduces each segment of a slot by sum, maximum, minimum, maximum magnitude, sum of squares or sum of magnitudes. -/
  | vred (core : Nat) (ctl : Ctl) (d a : BitVec 11) (rop : BitVec 3)
  /-- VTAB (R184): The VE applies a table function or its derivative. -/
  | vtab (core : Nat) (ctl : Ctl) (d a : BitVec 11) (func : BitVec 5) (der : Bool)
  /-- VCMPR (R181): The VE compresses the mask-selected elements and writes their count to VCNT. -/
  | vcmpr (core : Nat) (ctl : Ctl) (d a m : BitVec 11)
  /-- VEXPD (R182): The VE expands elements into the mask-selected positions. -/
  | vexpd (core : Nat) (ctl : Ctl) (d a m : BitVec 11) (zf : Bool)
  /-- VSTAT (R188): The VE adds a slot's elements to a stats buffer. -/
  | vstat (core : Nat) (ctl : Ctl) (a : BitVec 11) (sb : BitVec 4)
  /-- SCLR (R188): The VE clears a stats buffer and sets its BASE. -/
  | sclr (core : Nat) (ctl : Ctl) (sb : BitVec 4) (base : BitVec 9)
  /-- SUPD (R180): The VE applies a scaled update of N18 values to N36 master weights. -/
  | supd (core : Nat) (ctl : Ctl) (d a b : BitVec 11) (e : BitVec 9) (neg : Bool)
  /-- FSEL (R208): The VE summarises stats buffers, chooses a gradient format and scale for a handle, and records the summary in the group's pending word. -/
  | fsel (core : Nat) (ctl : Ctl) (h : BitVec 6) (sb nb : BitVec 4)
  /-- MSEND (R302): The ME sends one message on a channel, waiting for credit and padding at the ring's end as needed. -/
  | msend (core : Nat) (ctl : Ctl) (endn areg : BitVec 5) (inc : Bool) (len : BitVec 10) (tag : BitVec 8)
  /-- MRECV (R308): The ME selects a receivable message among the masked ends and writes RX, or is held. -/
  | mrecv (core : Nat) (ctl : Ctl) (mask : BitVec 32) (rot poll : Bool)
  /-- MREL (R305): The ME releases the head message of a receive end and returns its credit. -/
  | mrel (core : Nat) (ctl : Ctl) (endn : BitVec 5)
  /-- MCOMB (R314): The ME sends one contribution to a combining queue once it holds its credit. -/
  | mcomb (core : Nat) (ctl : Ctl) (endn areg : BitVec 5) (inc : Bool) (len : BitVec 10)
  /-- MCTAKE (R317): The ME writes a Complete combined result to scratchpad and reopens the queue. -/
  | mctake (core : Nat) (ctl : Ctl) (q : BitVec 3) (areg : BitVec 5) (inc : Bool)
  /-- MESSAGE_LAND (R304): A message's groups land in the receive ring and it becomes receivable. -/
  | messageLand (core endn : Nat) (ext : List PNt)
  /-- PAD_CONSUMED (R303): A pad record reaches the head and the ME consumes it, resetting RPOS and returning its credit. -/
  | padConsumed (core endn : Nat)
  /-- CREDIT_RETURN (R305): Returned credit from a release or pad arrives at the send end and is added to CREDIT. -/
  | creditReturn (core endn : Nat) (ext : Option Nat)
  /-- CONTRIBUTION_ARRIVAL (R314): A combining contribution arrives in the queue's staging store. -/
  | contributionArrival (core queue src : Nat) (ext : List PNt)
  /-- COMBINE (R316): The combiner takes a contribution in the order of the mode and stores it or adds it into the queue. -/
  | combine (core : Nat)
  /-- BEACON (R319): In every light-path frame a blocked ME sends a deadlock beacon naming the MEs it waits on. -/
  | beacon (core : Nat)
  /-- CHANNEL_DEADLOCK (R319): A deadlocked set of blocked MEs reaches 65,536 cycles, or a member's wait timeout, and raises the channel-deadlock program error. -/
  | channelDeadlock (core : Nat)
  /-- CONTEXT_SWITCH (R289): In Free mode a context held by a wait for switch_after cycles yields to the next issuable context. -/
  | contextSwitch (core eng : Nat)
  /-- FEEDER_READ (R88): A core's feeder reads 128 instructions from far memory into an engine queue with at least 128 free entries. -/
  | feederRead (core eng : Nat) (fault : ReadFault)
  /-- FEED_STALL (R90): An engine finds its queue empty while its stream has undelivered instructions, and every core of the program stalls. -/
  | feedStall (core eng : Nat)
  /-- PROGRAM_START (R89): Once every engine queue holds 512 instructions or its whole stream, every core issues its first instruction in the same cycle. -/
  | programStart (prog : Nat)
  /-- BARRIER_READY (R374): A member whose loader met the start condition sends READY to the coordinator. -/
  | barrierReady (prog chip : Nat)
  /-- BARRIER_RELEASE (R374): The coordinator holding every READY sends RELEASE with time T, and each member starts at the first cycle at or after T + 4 ns. -/
  | barrierRelease (prog t : Nat)
  /-- STEP_COMMIT (R439): When all commit conditions hold, the step commits: copies are saved, formats merged, the step number advances and the sequencer acts. -/
  | stepCommit (prog : Nat)
  /-- EMPTY_HOLD_RELEASE (R341): A commit that selected no candidate ends when a command or a tick gives a candidate, and the next step begins. -/
  | emptyHoldRelease (prog : Nat)
  /-- REMOUNT (R444): After a remount trigger, every core of the program stops, discards in-flight work, restores the step's copy and replays the step. -/
  | remount (prog : Nat)
  /-- HANG (R442): A link stall, timing-buffer hold or commit lasting more than 2 ms raises a hang, which is a remount trigger. -/
  | hang (prog : Nat)
  /-- ESCALATION (R454): The chip stops every program, logs the cause, completes STARTs with ESCALATED and performs a warm reset. -/
  | escalation (cause detail : Nat)
  /-- CORE_FAULT (R453): A parity error in core state, a core that fails to stop or restore, or a failed vetting pattern is a core fault and escalates the chip. -/
  | coreFault (core : Nat)
  /-- CHIP_LEVEL_ERROR (R453): Loss of PLL lock, of crossing calibration, a far channel that cannot be retrained, or a parity error in chip tables escalates the chip. -/
  | chipLevelError (cause : Nat)
  /-- STEP_DONE (R440): A member whose commit conditions hold sends STEP_DONE with its merged pending words to the coordinator. -/
  | stepDone (prog chip : Nat) (news : DoneNews)
  /-- COMMIT_FLIT (R440): The coordinator holding every STEP_DONE sends COMMIT with the merged format result, and each member commits. -/
  | commitFlit (prog : Nat) (news : CommitNews)
  /-- REMOUNT_FLIT (R445): A member's REMOUNT reaches the coordinator, which sends REMOUNT with a replay time T to every member. -/
  | remountFlit (prog chip : Nat) (t : RemountNews)
  /-- ESCALATE (R455): A member receiving ESCALATE ends that program alone with code 0x0406. -/
  | escalate (prog : Nat)
  /-- ENGINE_DRAIN_TIMEOUT (R74): An engine in Draining reaches 2 ms, its remaining work is discarded and every engine of the core goes to Halted. -/
  | engineDrainTimeout (core eng : Nat)
  /-- REST_WINDOW (R252): A stack's rest counter enters a rest window; no near request is made, and refresh, scrubbing and host window access take place. -/
  | restWindow (stack : Nat)
  /-- NEAR_REREAD (R255): A near block fails its check and is read again, hidden or with a whole-machine stall, then landed poisoned or taken from the mirror. -/
  | nearReread (addr : Nat) (ok : Bool) (stall : Nat)
  /-- MIRROR_READ (R260): A failed primary block is read from the mirror, delivered and rewritten in the primary, or poisoned in both copies. -/
  | mirrorRead (addr : Nat) (ok : Bool) (stall : Nat)
  /-- SCRUB_READ (R262): The scrubber reads and checks a block or scratchpad word, and compares the two copies of an Active mirror. -/
  | scrubRead (addr : Nat) (fault : ReadFault)
  /-- MIRROR_SYNC_DONE (R261): The background copy of a Syncing region completes and the region becomes Active. -/
  | mirrorSyncDone (region : Nat)
  /-- BANK_WAKE (R241): A powered-up bank finishes waking after wake_time and becomes accessible with every word unwritten. -/
  | bankWake (core bank : Nat)
  /-- BANK_DRAIN_TIMEOUT (R242): A Draining bank reaches 2 ms, its remaining accesses complete with an error, and it powers down. -/
  | bankDrainTimeout (core bank : Nat)
  /-- FLIT_RECEIVE (R358): A Jizia port receives a flit, checks CRC and SEQ, forwards it or delivers it, or discards it and sends a NAK. -/
  | flitReceive (port : Nat) (flit : Flit)
  /-- NAK (R358): A received NAK makes the sender re-send in order from the named flit. -/
  | nak (port seq : Nat)
  /-- ACK_TIMEOUT (R359): ACK makes no progress for 100 µs while flits are outstanding, and the port retrains. -/
  | ackTimeout (port : Nat)
  /-- LANE_LOCK_LOSS (R359): A Jizia lane loses lock and the port retrains. -/
  | laneLockLoss (port lane : Nat)
  /-- RETRAIN_COMPLETE (R359): A retraining port returns to Up, keeping its replay buffer after a fast retrain. -/
  | retrainComplete (port : Nat) (news : RetrainNews)
  /-- PORT_DOWN_TIMEOUT (R359): A port that has not returned to Up within 50 ms goes Down and discards its replay buffer. -/
  | portDownTimeout (port : Nat)
  /-- LINK_TRAINED (R368): IEEE 802.3dj training and FEC lock complete and the port moves to Calibrating. -/
  | linkTrained (port : Nat)
  /-- INIT (R369): An INIT exchange gives the peer's chip ID, port and versions; the port picks a version, goes Down or becomes Miswired. -/
  | init (port peerChip peerPort versions : Nat)
  /-- CAL (R370): After 1 ms of CAL timestamps the port measures latency and goes Up or Open-only. -/
  | cal (port picos : Nat)
  /-- TIME (R373): A TIME flit aligns the chip's time counter toward the time root. -/
  | time (port : Nat) (ahead : Int) (aligned : Bool)
  /-- BEACON_FLIT (R319): A BEACON control flit carries deadlock beacons of MEs on another chip to the wait-graph unit. -/
  | beaconFlit (chip core : Nat) (waits : List (Nat × Nat))
  /-- FLIT_DUE (R360): A Scheduled flit's DUE count arrives and the station releases it into static slots, or a link stall begins if it is missing. -/
  | flitDue (prog station flow word : Nat)
  /-- JIZIA_PORT_DRAIN_TIMEOUT (R372): A Draining Jizia port reaches 2 ms, remaining flits are discarded and the port becomes Disabled. -/
  | jiziaPortDrainTimeout (port : Nat)
  /-- SUBMISSION_TAIL (R389): A KIND 1 doorbell advances the submission tail, and the device begins the new entries within 5 µs. -/
  | submissionTail (queue : Nat) (octets : HostSend)
  /-- COMPLETION_HEAD (R389): A KIND 2 doorbell reports the completion entries the host has consumed. -/
  | completionHead (queue : Nat) (octets : HostSend)
  /-- RDMA_WRITE (R397): A host RDMA WRITE packet converts octets to nonets under its window's CONV and writes device memory. -/
  | rdmaWrite (queue va rkey : Nat) (octets : RdmaBody)
  /-- RDMA_READ (R397): A host RDMA READ returns device memory converted under its window's CONV, or is refused for poison. -/
  | rdmaRead (queue va rkey : Nat) (len : RdmaSpan)
  /-- ATOMIC_REQUEST (R382): A RoCE atomic request gets an Invalid Request NAK. -/
  | atomicRequest (queue : Nat)
  /-- CNP (R382): A received congestion notification packet lowers its QP's send rate. -/
  | cnp (queue : Nat)
  /-- PFC_FRAME (R380): A received PFC frame pauses the named lossless priority and is counted. -/
  | pfcFrame (port : Nat) (prio : PfcNews)
  /-- HOST_LINK_LOSS (R484): A host port loses link and performs a link-retrain reset. -/
  | hostLinkLoss (port : Nat)
  /-- NOP_ENTRY (R387): A NOP submission entry completes OK. -/
  | nopEntry (queue : Nat)
  /-- LOAD (R407): The loader parses, seals, checks, verifies, relocates and writes an image, and returns a program number or REFUSED. -/
  | load (queue : Nat)
  /-- START (R387): A START begins filling the program's queues and completes when the program ends. -/
  | start (queue : Nat)
  /-- STOP (R93): A STOP drains every engine of the program and completes when its segments are unbound. -/
  | stop (queue : Nat)
  /-- STREAM (R410): A STREAM entry delivers the next chunk of a host-streamed engine stream once its queue has room. -/
  | stream (queue : Nat)
  /-- SIGNAL (R387): A SIGNAL entry increments a counter of a program's core. -/
  | signal (queue : Nat)
  /-- WINDOW (R395): A WINDOW entry creates a memory window and returns its rkey. -/
  | window (queue : Nat)
  /-- DESTROY (R399): A WINDOW entry with DESTROY puts the window in Draining and completes when it becomes Off. -/
  | destroy (queue : Nat)
  /-- WINDOW_DRAIN_TIMEOUT (R399): A Draining window reaches 2 ms and its remaining transfers are refused. -/
  | windowDrainTimeout (window : Nat)
  /-- CREATE (R329): A CREATE session command makes a valid Idle session with a new generation. -/
  | create (queue : Nat)
  /-- SET (R329): A SET session command replaces the selected fields of a session. -/
  | set (queue : Nat)
  /-- RESTORE (R329): A RESTORE takes a ready-store place and reads the KV copy from the host, or relies on KEPT. -/
  | restore (queue : Nat)
  /-- RESTORE_LANDED (R329): The RESTORE's KV copy has landed; the session becomes Resident and the entry completes. -/
  | restoreLanded (session : Nat) (ok : Bool) (data : List Word)
  /-- EVICT (R329): An EVICT drains a Running session and writes its KV to the host or keeps it. -/
  | evict (queue : Nat)
  /-- EVICT_WRITTEN (R329): The EVICT's KV copy has been written to the host, the session becomes Idle and the entry completes. -/
  | evictWritten (session : Nat) (ok : Bool)
  /-- DELETE (R329): A DELETE drains a Running session and clears VALID. -/
  | delete (queue : Nat)
  /-- SESSION_DRAIN_TIMEOUT (R335): A Draining session reaches 2 ms, leaves Running with its last commit state and its command proceeds. -/
  | sessionDrainTimeout (session : Nat)
  /-- ALOAD (R333): An ALOAD writes an adapter entry. -/
  | aload (queue : Nat)
  /-- ADFREE (R333): An ADFREE clears an adapter entry. -/
  | adfree (queue : Nat)
  /-- COMPLETION_BACKLOG (R394): A waiting completion is written once its ring has room and its queue is Ready, or dropped when the backlog is full. -/
  | completionBacklog (queue : Nat)
  /-- HOST_PORT_DRAIN_TIMEOUT (R400): A Draining host port reaches 2 ms, remaining transfers are discarded and the port becomes Disabled. -/
  | hostPortDrainTimeout (port : Nat)
  /-- QUEUE_DRAIN_TIMEOUT (R519): A disabled host queue's begun entries reach 2 ms, complete with DISCARDED and the queue becomes Off. -/
  | queueDrainTimeout (queue : Nat)
  /-- READ (R507): An Irair READ returns the values of its items at one instant. -/
  | read (frame : Frame)
  /-- WRITE (R507): An Irair WRITE writes or stages all of its items, or none of them. -/
  | write (frame : Frame)
  /-- DESCRIBE (R506): An Irair DESCRIBE returns an entry's type, access, class, default and name. -/
  | describe (frame : Frame)
  /-- NEXT (R506): An Irair NEXT returns the next defined entry. -/
  | next (frame : Frame)
  /-- HELLO (R509): An Irair HELLO opens a pending session and returns a nonce, session ID, encapsulation key and signature. -/
  | hello (frame : Frame)
  /-- AUTH (R510): An Irair AUTH checks the requester's key and signature, decapsulates and opens the session with its role. -/
  | auth (frame : Frame)
  /-- CLOSE (R513): An Irair CLOSE closes the session. -/
  | close (frame : Frame)
  /-- BEGIN (R514): An Irair BEGIN opens the chip's single transaction. -/
  | begin (frame : Frame)
  /-- COMMIT (R517): An Irair COMMIT validates the staged items together and applies them at one commit point, or applies none. -/
  | commit (frame : Frame)
  /-- ROLLBACK (R518): An Irair ROLLBACK discards the open transaction. -/
  | rollback (frame : Frame)
  /-- AUTH_FRAGMENT_TIMEOUT (R505): A partial AUTH message whose frames do not all arrive within 1 s is discarded. -/
  | authFragmentTimeout (session : Nat)
  /-- PENDING_SESSION_EXPIRY (R509): A pending session not completed by AUTH within 5 s is discarded. -/
  | pendingSessionExpiry (session : Nat)
  /-- SESSION_IDLE_TIMEOUT (R513): A session with no accepted frame for session_idle_s closes. -/
  | sessionIdleTimeout (session : Nat)
  /-- TRANSACTION_TIMEOUT (R518): An open transaction rolls back 10 s after its BEGIN. -/
  | transactionTimeout
  /-- REGISTER_WRITE (R499): A write to a dictionary entry or control-block register without behaviour of its own sets its value or clears its W1C bits. -/
  | registerWrite (target : RegTarget) (value : Nat)
  /-- BANKS_CORE (R242): A commit of 0x4010 powers banks up, or puts banks whose bit is cleared into Draining. -/
  | banksCore (core mask : Nat)
  /-- MIRROR_STATE (R261): A commit of a mirror region's state turns it Off, puts it in Syncing or makes a Split region Active. -/
  | mirrorState (region state : Nat)
  /-- SCRUBBER_ENABLE (R263): A write of 0x3110.01 starts the scrubber or stops it after the block in hand. -/
  | scrubberEnable (on : Bool)
  /-- CORE_ENABLE (R519): A commit of the core map disables cores, draining their work, or re-enables Disabled cores. -/
  | coreEnable (part mask : Nat)
  /-- JIZIA_PORT_ENABLE (R372): A commit clearing a Jizia port's enable puts it in Draining. -/
  | jiziaPortEnable (port : Nat) (on : Bool)
  /-- HOST_PORT_ENABLE (R400): A commit clearing a host port's enable puts it in Draining and its queues in Error. -/
  | hostPortEnable (port : Nat) (on : Bool)
  /-- QUEUE_ENABLE (R384): A commit of a host queue's enable negotiates its version and makes it Ready, or disables it. -/
  | queueEnable (queue : Nat) (on : Bool)
  /-- CHIP_ID (R377): A commit of the fabric place entries sets the chip's ID and dimensions and retrains its live ports. -/
  | chipId (chip dims : Nat) (sizes : List Nat) (root : Bool)
  /-- NODE_ID (R531): A write of 0x1000.01 assigns the chip's segment node ID and raises CHAIN_OUT. -/
  | nodeId (session node : Nat)
  /-- MODE (R422): A commit of 0x6000.01 selects Locked or Free, applied at each program's next step boundary. -/
  | mode (mode : Nat)
  /-- REQUEST_ACTIVE (R483): A commit of power state Active returns the part from Idle, Parked or Standby. -/
  | requestActive (overSegment : Bool)
  /-- REQUEST_IDLE (R483): A commit of power state Idle gates the engine clocks. -/
  | requestIdle
  /-- REQUEST_PARKED (R483): A commit of power state Parked power-gates the core groups. -/
  | requestParked
  /-- REQUEST_STANDBY (R483): A commit of power state Standby turns off every stretchable domain. -/
  | requestStandby
  /-- CORE_RESET (R487): A core reset ends every loaded program and resets the core-group domains. -/
  | coreReset
  /-- WARM_RESET (R486): A warm reset stops programs, self-refreshes memory, resets stretchable domains, recalibrates crossings and rebuilds the session index. -/
  | warmReset
  /-- COLD_RESET (R484): A cold reset from RESET_N or a command resets everything except the always-on domain and zeroes memory. -/
  | coldReset (byPin : Bool)
  /-- POWER_ON_RESET (R484): The 3.3 V input becoming valid resets everything and the power-up sequence begins. -/
  | powerOnReset
  /-- RESET_RELEASE (R490): RESET_N rises with both inputs valid, the internal rails ramp and the stretchable domains start. -/
  | resetRelease
  /-- ZEROING_COMPLETE (R485): Zeroing of near and far memory completes, and LOADs and window creations are accepted. -/
  | zeroingComplete
  /-- PATTERNS (R459): A commit of vetting action Patterns arms built-in test patterns on the named cores. -/
  | patterns (cores : List Nat) (prog : Nat)
  /-- RECORD (R460): A commit of vetting action Record arms the recording of a step of a running program. -/
  | record (prog step addr : Nat)
  /-- REPLAY (R461): A commit of vetting action Replay runs a recorded step on the rotated core map and compares digests. -/
  | replay (prog : Nat)
  /-- VETTING_RUN_END (R459): A vetting run ends in Passed or Failed, logging event 0x0602. -/
  | vettingRunEnd (failing : Option Nat)
  /-- ALERT_ACK (R467): A write of alert_ack acknowledges event records and may release ALERT_N. -/
  | alertAck (seq : Nat)
  /-- UPDATE_DATA (R544): A write of update_data writes 1,024 octets into the inactive Clover slot and advances update_offset. -/
  | updateData (session : Nat) (octets : List (BitVec 8))
  /-- UPDATE_CHECK (R544): A write of update_check checks the inactive slot and sets update_state. -/
  | updateCheck (session : Nat)
  /-- RESTART_STANDBY (R545): A write of restart_standby restarts the standby controller. -/
  | restartStandby (session : Nat)
  /-- HANDOVER (R539): A write of handover moves primacy to the standby without escalating. -/
  | handover (session : Nat)
  /-- COMMIT_SVN (R545): A write of commit_svn advances the fused security-version counter. -/
  | commitSvn (session : Nat)
  /-- REVOKE_SLOT (R545): A write of revoke_slot revokes a key slot in the fuses. -/
  | revokeSlot (session slot : Nat)
  /-- NONCE (R547): A write of nonce forms a signed attestation report for the writing session. -/
  | nonce (session : Nat) (octets : List (BitVec 8))
  /-- FREEZE_NOW (R554): A write of freeze_now freezes the part. -/
  | freezeNow
  /-- ARM_TIME_TRIGGER (R554): A commit of arm 1 arms a freeze at a time-counter value. -/
  | armTimeTrigger (at_ : Nat)
  /-- ARM_CYCLE_TRIGGER (R554): A commit of arm 2 arms a freeze at a program cycle count. -/
  | armCycleTrigger (prog at_ : Nat)
  /-- TIME_TRIGGER (R554): The time counter reaches the armed value and the part freezes. -/
  | timeTrigger
  /-- CYCLE_TRIGGER (R555): The armed program's cycle count reaches at and the part freezes before that cycle issues. -/
  | cycleTrigger
  /-- READOUT_START (R558): A write of readout_start sends the state image to the host by RDMA WRITE. -/
  | readoutStart
  /-- READOUT_COMPLETE (R559): The read-out ends or fails and the state becomes Read. -/
  | readoutComplete (ok : Bool) (octets : Nat)
  /-- END_TEST (R560): A write of end with freeze_mode Test thaws the part in one common cycle. -/
  | endTest
  /-- END_SERVICE (R560): A write of end with freeze_mode Service escalates the chip with code 0x0403. -/
  | endService
  /-- FREEZE_N (R571): A falling edge on FREEZE_N followed by 20 ns low freezes the part. -/
  | freezeN (lowNs : Nat)
  /-- RESET_N (R571): RESET_N low for 5 µs or more causes a cold reset. -/
  | resetN (lowNs : Nat)
  /-- TIME_PPS (R491): A TIME_PPS rising edge on the time root steps or slews its time counter, or is ignored and counted. -/
  | timePps (offsetNs : Int)
  /-- CHAIN_IN (R530): A change of CHAIN_IN makes an unassigned chip answer at 0xFF or fall silent on the segment. -/
  | chainIn (high : Bool)
  /-- STRETCH (R475): A domain's droop detector removes its next clock edge and requests swallows from the swallow controller. -/
  | stretch (domain : Nat)
  /-- FORCED_REST_WINDOW (R477): Stretches and swallows exceed 125 in a 1,000 ns window and every program enters a 320-cycle whole-machine stall. -/
  | forcedRestWindow
  /-- LIMITER_MEASUREMENT (R481): Every 256 ns the limiter measures input energy and requests, raises or releases swallows. -/
  | limiterMeasurement (microjoules : Nat) (over1600 : Bool)
  /-- CROSSING_CALIBRATION_LOSS (R474): A crossing's phase difference exceeds its slack, which is a chip-level error. -/
  | crossingCalibrationLoss (src dst : Nat)
  /-- PLL_UNLOCK (R453): The PLL loses lock, which is a chip-level error. -/
  | pllUnlock
  /-- INPUT_48V_LOW (R565): 48 V below 44.0 V for 20 µs logs an event, shuts the rails down and holds the part in cold reset. -/
  | input48vLow
  /-- INPUT_48V_HIGH (R565): 48 V above 58.0 V for 20 µs shuts the rails down as for 48 V low. -/
  | input48vHigh
  /-- INPUT_48V_RECOVERY (R565): 48 V rises above 46.0 V and the part leaves cold reset. -/
  | input48vRecovery
  /-- INPUT_3V3_LOW (R565): 3.3 V below 3.0 V shuts every rail down, with a power-on reset on return. -/
  | input3v3Low
  /-- OVER_TEMPERATURE (R576): A die sensor above 115 °C logs an event and shuts the rails down. -/
  | overTemperature
  /-- THERMAL_RECOVERY (R576): Every sensor reads below 95 °C and the part leaves cold reset. -/
  | thermalRecovery
  /-- YARROW_BOOT (R542): A controller leaves reset, Yarrow selects and runs a valid Clover slot, and the controller claims primacy or becomes standby. -/
  | yarrowBoot (off : Bool)
  /-- NO_PRIMARY (R542): Neither controller has become primary 2 s after power-on and ALERT_N is asserted. -/
  | noPrimary
  /-- HEARTBEAT (R536): Each millisecond each running controller increments its heartbeat and checks its peer's for a miss. -/
  | heartbeat (nearAlive offAlive : Bool)
  /-- TAKEOVER (R536): Three consecutive primary misses make the standby reset the primary, take primacy and escalate the chip. -/
  | takeover
  /-- STANDBY_RESTART (R537): Three consecutive standby misses make the primary reset the standby. -/
  | standbyRestart
  /-- TOKEN_CONFLICT (R538): Both primacy bits set, or mutual takeover requests, leave the near controller primary and escalate the chip. -/
  | tokenConflict (both : Bool)
  /-- HOST_PORT_TRAINED (R381): A host port completes Clause 73 auto-negotiation and link training and its state goes from Training to Up. -/
  | hostPortTrained (port : Nat)
  /-- LOCAL_ACK_TIMEOUT (R382): The RoCE transport timer of a device-sent RDMA operation expires, leading to a retry or, once the retry count is spent, the QP error state and queue Error. -/
  | localAckTimeout (queue : Nat)
  /-- HOST_ACK_OR_NAK (R385): An RC ACK or NAK from the host arrives for a device-sent operation and may put the QP in the error state and its queue in Error. -/
  | hostAckOrNak (queue : Nat) (nak : Bool)
  /-- PRIMACY_CLAIM (R535): Once 2 s of the time counter have passed with no primary, a running controller that strap did not name sets its primacy bit. -/
  | primacyClaim (off : Bool)
  /-- EXIT_TO_ACTIVE (R482): The exit time from Idle, Parked or Standby ends: crossings are calibrated, memory leaves self-refresh and the part is Active, so waiting queue entries begin. -/
  | exitToActive
  /-- TAP_OPERATION (R573): TCK, TMS, TDI and TRST_N drive the IEEE 1149.1 TAP through BYPASS, IDCODE, SAMPLE/PRELOAD, EXTEST, CLAMP or HIGHZ. -/
  | tapOperation (instr : TapInstr) (tdi : List Bool)
  deriving DecidableEq, Repr

end Sys2Proof
end

