-- ==== Sys2Proof/Decode.lean ====
section
/-! DEFINITION. The command a table word spells. No row of spec/opcode_table.json gives bits, so no word spells a command: the
part takes commands as events with their operands (its engines' own instruction words are in Machine/Encoding.lean). -/

namespace Sys2Proof

/-- The command of a word of `nbits` bits. -/
def decodeTableWord (_nbits _w : Nat) : Option Instr := none

end Sys2Proof
end

