-- ==== Sys2Proof/Config.lean ====
section
/-! DEFINITION. What the spec leaves open, as constants with no body: nothing can be proved of their values. Each is named in
the assumption log. -/

namespace Sys2Proof

/-- The code an OPE read finds in a turn-buffer element that was written in format `wfmt` and is read in a half tagged
`rfmt` of another width (R137, R138). -/
opaque Config.turnRecode (code wfmt rfmt : Nat) : Nat

/-- Entry `i` of the value or derivative table of a VE table function, as an N36 encoding; entry 1,024 ends the last
interval (R185: the contents are fixed, and the spec does not list them). -/
opaque Config.tabEntry (func : Nat) (der : Bool) (i : Nat) : Nat

/-- The result of a table function, as an N36 encoding, for an input whose result the spec does not state: an infinity given
to functions 0 to 4, −0 given to 1/√x, and a zero given to a derivative of log₂ x, 1/x or 1/√x (R184, R186). -/
opaque Config.tabOpen (func : Nat) (der : Bool) (input : Nat) : Nat

/-! ### Algorithms of other standards, and values the part makes fresh -/

/-- SHA3-256 of a string of octets (R405, R509, R542). -/
opaque Config.sha3 (m : List (BitVec 8)) : Nat

/-- ML-DSA-44 verification: public key, 32-octet digest, signature (R510, R542, R550). -/
opaque Config.dsaVerify (key : List (BitVec 8)) (digest : Nat) (sig : List (BitVec 8)) : Bool

/-- The ML-DSA-44 public key whose SHA3-256 is a key ID, as the requester holds it (R509, R510). -/
opaque Config.dsaKeyOf (keyId : Nat) : List (BitVec 8)

/-- ML-DSA-44 signature by a private key over a 32-octet digest, 2,420 octets (R511, R547). -/
opaque Config.dsaSign (key : Nat) (digest : Nat) : List (BitVec 8)

/-- A fresh ML-KEM-768 decapsulation key; the argument counts the values made (R509). -/
opaque Config.kemKey (n : Nat) : Nat

/-- The ML-KEM-768 encapsulation key of a decapsulation key, as a number of 1,184 octets (R509). -/
opaque Config.kemPublic (dk : Nat) : Nat

/-- ML-KEM-768 decapsulation: `none` where it fails (R510). -/
opaque Config.kemDecaps (dk : Nat) (c : List (BitVec 8)) : Option Nat

/-- KMAC256 with a 256-bit key, a message, an output length in bits and the customisation string's number: 0 for "Irair session", 1 for
"Irair frame" (R511, R512). -/
opaque Config.kmac (key : Nat) (m : List (BitVec 8)) (bits custom : Nat) : Nat

/-- A fresh 32-octet nonce (R509). -/
opaque Config.nonce (n : Nat) : Nat

/-- A fresh session ID, before it is made nonzero and new (R509). -/
opaque Config.sessionId (n : Nat) : Nat

/-- The priority that the frames of a queue's QP carry, by its DSCP: the spec gives no map from one to the other (R380, R384). -/
opaque Config.hostPrio (dscp : Nat) : Nat

/-- By how much, less one, the 22-bit tag of a window's rkey moves at a creation (R395). -/
opaque Config.tagStep (n : Nat) : Nat

/-- The payload of a DESCRIBE response for a type, an access code, a class, a default and a name: the spec gives these parts no encoding (R506). -/
opaque Config.describe (typ access cls : List (BitVec 8)) (dflt : Nat) (name : List (BitVec 8)) : List (BitVec 8)

/-- The temperature that a stack reports at a time, as the I32 of 0x3000.05 (R523). -/
opaque Config.stackTemp (stack time : Nat) : Nat

/-- The on-die ECC corrections that a channel of far memory has reported by a time (R524). -/
opaque Config.eccReports (channel time : Nat) : Nat

/-- A nonet of the poisoned data that lands for a read its source refuses: source address (R271). -/
opaque Config.refusedNonet (addr : Nat) : BitVec 9

/-- A low pulse of RESET_N of 3 to 5 µs, which a board must not drive, acts as a reset (R571). -/
opaque Config.shortReset (ns : Nat) : Bool

/-- The chip of a connected system that has time_root set, where this one has not (R373). -/
opaque Config.timeRoot : Nat

/-- Whether the read response with this header answers a load that a remount has discarded (R275). -/
opaque Config.staleResponse (header : BitVec 72) : Bool

/-- The chip cycle in which an access to a scratchpad was sent that comes from another chip (0, by its flit's header) or from a host (1, by its address): one
that was in flight when a bank began to drain may finish (R242). -/
opaque Config.sentCycle (from_ key : Nat) : Nat

/-- The declared latency of a port of another chip (R367). -/
opaque Config.portLat (chip port : Nat) : Nat

/-- The pad that calibration gives a crossing, in root periods (R474, R493). -/
opaque Config.crossPad (src dst n : Nat) : Nat

/-- Calibration `n` of a crossing fails (R474, R493). -/
opaque Config.crossFails (src dst n : Nat) : Bool

/-- The slack that a crossing has left at stretch or swallow `k` after calibration `n`, in cycles (R474, R493). -/
opaque Config.slackLeft (src dst n k : Nat) : Nat

/-! ### Image sections to which the spec gives no layout: PLAN, SLOTS and POWER (R414, R417, R418) -/

/-- The events of every furlong of an image's plan, in its widest variant, as (event, count) with the events in the order of R480's table
(R414, R418). -/
opaque Config.planEvents (image : List (BitVec 72)) : List (List (Nat × Nat))

/-- The verdict on an image of what rests on the plan in checks 4 to 15 and 18: `none` accepts; else the check, core, engine and
instruction. -/
opaque Config.planVerdict (image : List (BitVec 72)) : Option (Nat × Nat × Nat × Nat)

/-- The first instructions of steps that a PLAN section marks, as (core, engine, context, instruction) (R414, R437). -/
opaque Config.planMarks (plan : List (BitVec 72)) : List (Nat × Nat × Nat × Nat)

/-- How many steps pass, from step `n` of the program on, until a stream has an instruction again, by the image's digest, core, engine and context
(R414, R437). -/
opaque Config.planSkip (digest core eng ctx n : Nat) : Nat

/-- The near and far ranges that a PLAN section declares as step inputs, as (address, size) (R414). -/
opaque Config.planInputs (plan : List (BitVec 72)) : List (Nat × Nat)

/-- The stacks whose near path a plan uses (R253). -/
opaque Config.planStacks (plan : List (BitVec 72)) : List Nat

/-- The port and cycle of every Scheduled flit that a plan has cross a port direction (R362). -/
opaque Config.planFlits (plan : List (BitVec 72)) : List (Nat × Nat)

/-- The tokens a POWER section declares (R418). -/
opaque Config.powerTokens (power : List (BitVec 72)) : Nat

/-- FRAME of a SLOTS section (R347). -/
opaque Config.slotFrame (slots : List (BitVec 72)) : Nat

/-- The static flows of a SLOTS section (R417): the row and column where each enters the network (column 12: a row station), its number, class,
start positions and slots for each start, the rows and columns where it leaves the network, its destination chip and core, and its DLY. -/
opaque Config.slotStatics (slots : List (BitVec 72)) :
    List (Nat × Nat × Nat × Nat × List Nat × Nat × List (Nat × Nat) × Nat × Nat × Nat)

/-- The flow tables of a SLOTS section, as (station, flow, core, base, in a receive ring, end or queue) (R360). -/
opaque Config.slotFlows (slots : List (BitVec 72)) : List (Nat × Nat × Nat × Nat × Bool × Nat)

/-- The ports with Scheduled flows and their declared latencies (R370, R417). -/
opaque Config.slotPorts (slots : List (BitVec 72)) : List (Nat × Nat)

/-- The largest declared path latency from the coordinator to a member of the group, in cycles (R374). -/
opaque Config.pathLatency (slots : List (BitVec 72)) : Nat

/-- The size in words of the receive ring of a channel end on another chip, which this chip's image does not hold (R300). -/
opaque Config.peerRing (chip core endn : Nat) : Nat

/-! ### Other open values and layouts -/

/-- VALUE of a completion to which the spec gives no result, by its TAG (R391, R392). -/
opaque Config.noResult (tag : Nat) : Nat

/-- The FLOW number under which a Scheduled flow of a program, by its image digest, sends from an end of a core (R360). -/
opaque Config.flowName (digest core endn : Nat) : Nat

/-- Whether the credit grant that a flit with this header carries was sent in an attempt that has failed (R247). -/
opaque Config.staleGrant (header : BitVec 72) : Bool

/-- The cycles from a Scheduled flit's release at its station, in cycle DUE, to the landing of its group at a core (R304, R360). -/
opaque Config.stationLead (core : Nat) : Nat

/-- The local destination address in the header of an Open message or contribution flit, by TYPE, core, end or queue, and word (R355). -/
opaque Config.openPlace (typ core endn word : Nat) : Nat

/-- The payload words of a control flit of a kind, for what it carries (R357, R440); KIND stands in word 0 apart from them. -/
opaque Config.ctlPayload (kind : Nat) (info : List Int) : List (BitVec 72)

/-- The payload words of the further control flits that one flit cannot hold (R357, R440). -/
opaque Config.ctlMore (kind : Nat) (info : List Int) : List (List (BitVec 72))

/-- The payload of a Jizia read request with a source address, a size and the requester's chip (R355). -/
opaque Config.readPayload (src n chip : Nat) : List (BitVec 72)

/-- The source address, size and requester's chip in the payload of a Jizia read request (R355). -/
opaque Config.readRequest (payload : List (BitVec 72)) : Nat × Nat × Nat

/-- The flops of the die at a freeze, in the order of Rinuf's scan map (R558). -/
opaque Config.scan (n : Nat) : List (BitVec 72)

/-- The words in which a state image holds the values of a core's arrays, each with its poison: the spec names the arrays and gives their values no places
(R558). -/
opaque Config.arrayWords (values : List (List Int × Bool)) : List (BitVec 72)

/-- What the flash holds where nothing has been written since it left the factory (R540). -/
opaque Config.flashOctet (addr : Nat) : BitVec 8

/-- Word `i` of a step's record, which holds the words `ws` that R460 names and the copies of R73: the spec gives it no layout; `n` counts the
fresh values (R460). -/
opaque Config.recordWord (n : Nat) (ws : List (BitVec 72)) (i : Nat) : BitVec 72

/-- How many words a core's copy of R73 takes in a step's record, before the bound of 65,536 (R460). -/
opaque Config.copyWords (step : Nat) : Nat

/-- What the boundary register captures: the levels at the pins it covers, whose number and order the spec does not give; the argument counts
captures (R573). -/
opaque Config.sampled (n : Nat) : List Bool

end Sys2Proof
end

