-- ==== Sys2Proof/Machine/Bits.lean ====
section
/-! DEFINITION. Bit fields, two's complement, byte and nonet order (R5, R14, R15), and small list helpers. -/

namespace Sys2Proof.Machine

/-- Bits [hi:lo] of a word, as a number. -/
def bits (w : Word) (hi lo : Nat) : Nat := w.toNat / 2 ^ lo % 2 ^ (hi + 1 - lo)

/-- Bit `i` of a word. -/
def bit (w : Word) (i : Nat) : Bool := w.toNat / 2 ^ i % 2 == 1

/-- Bits [hi:lo] of a plain number. -/
def nbits (n hi lo : Nat) : Nat := n / 2 ^ lo % 2 ^ (hi + 1 - lo)

/-- Bit `i` of a plain number. -/
def nbit (n i : Nat) : Bool := n / 2 ^ i % 2 == 1

/-- A field value placed at bit `lo`. -/
def fld (v lo : Nat) : Nat := v * 2 ^ lo

/-- A truth value as one bit. -/
def b2n (b : Bool) : Nat := if b then 1 else 0

/-- The value of an `n`-bit two's-complement field (R22). -/
def sgn (n v : Nat) : Int := if v % 2 ^ n < 2 ^ (n - 1) then (v % 2 ^ n : Nat) else (v % 2 ^ n : Nat) - (2 ^ n : Nat)

/-- The `n`-bit two's-complement encoding of an integer, wrapping (R22). -/
def enc2 (n : Nat) (i : Int) : Nat := (i % (2 ^ n : Nat)).toNat

/-- Clear the low bits that break an alignment (R15): the aligned address at or below `a`. -/
def alignDown (a k : Nat) : Nat := a - a % k

/-- The smallest multiple of `k` at or above `a`. -/
def alignUp (a k : Nat) : Nat := (a + k - 1) / k * k

/-- Division rounded up. -/
def cdiv (a b : Nat) : Nat := (a + b - 1) / b

/-- Nonet `k` of a word: nonet 0 holds bits [8:0] (R5). -/
def nonetOf (w : Word) (k : Nat) : Nonet := BitVec.ofNat 9 (w.toNat / 2 ^ (9 * k))

/-- A value from its nonets, the nonet at the lowest address first (R14). -/
def ofNonets : List Nonet → Nat
  | [] => 0
  | n :: ns => n.toNat + 512 * ofNonets ns

/-- The `k` nonets of a value, lowest address first (R14). -/
def toNonets : Nat → Nat → List Nonet
  | 0, _ => []
  | k + 1, v => BitVec.ofNat 9 v :: toNonets k (v / 512)

/-- A value from its octets, the lowest first (little-endian, R498). -/
def ofOctets : List (BitVec 8) → Nat
  | [] => 0
  | n :: ns => n.toNat + 256 * ofOctets ns

/-- The `k` octets of a value, lowest first (R498). -/
def toOctets : Nat → Nat → List (BitVec 8)
  | 0, _ => []
  | k + 1, v => BitVec.ofNat 8 v :: toOctets k (v / 256)

/-- Write bits [hi:lo] of a number. -/
def setBits (n hi lo v : Nat) : Nat :=
  n - (nbits n hi lo) * 2 ^ lo + (v % 2 ^ (hi + 1 - lo)) * 2 ^ lo

/-- Set or clear bit `i` of a number. -/
def setBit (n i : Nat) (b : Bool) : Nat := setBits n i i (b2n b)

/-- A sum that saturates at a maximum. -/
def satAdd (mx a b : Nat) : Nat := min mx (a + b)

/-- Split a list into chunks of `n` (structural on `fuel`, which is at least the list's length). -/
def chunksAux {α : Type} (n : Nat) : Nat → List α → List (List α)
  | 0, _ => []
  | _ + 1, [] => []
  | f + 1, x :: xs => (x :: xs).take n :: chunksAux n f ((x :: xs).drop n)

/-- Split a list into chunks of `n`. -/
def chunks {α : Type} (n : Nat) (l : List α) : List (List α) := chunksAux n l.length l

/-- The first element that satisfies a test, and the list without it. -/
def takeFirst {α : Type} (p : α → Bool) : List α → Option (α × List α)
  | [] => none
  | x :: xs => if p x then some (x, xs) else (takeFirst p xs).map fun r => (r.1, x :: r.2)

/-- Number of the bits of `n` below `k` that are set. -/
def popcount : Nat → Nat → Nat
  | 0, _ => 0
  | k + 1, n => n % 2 + popcount k (n / 2)

/-- The positions below `k` of the bits of `n` that are set, in increasing order. -/
def setBitsOf (k n : Nat) : List Nat := (List.range k).filter fun i => nbit n i

/-- Replace element `i` of a list. -/
def listSet {α : Type} : List α → Nat → α → List α
  | [], _, _ => []
  | _ :: xs, 0, v => v :: xs
  | x :: xs, i + 1, v => x :: listSet xs i v

/-- No value occurs twice. -/
def distinct : List Nat → Bool
  | [] => true
  | x :: xs => !(xs.contains x) && distinct xs

end Sys2Proof.Machine
end

