-- ==== Sys2Proof/Machine/Formats.lean ====
section
/-! DEFINITION. Number formats, special values, exact arithmetic, the two rounding modes, the stochastic generator and
the conversions (R17 to R39). Every computation is exact (a dyadic rational) and is rounded where a rule says so. -/

namespace Sys2Proof.Machine

/-- The number formats, in the coding of a handle's FMT field (R17, R232). -/
inductive Fmt where
  | n9 | n9e | n18 | n36 | i9 | i18 | i36 | u36
  deriving DecidableEq, Repr

/-- A format from its 3-bit code (R232). -/
def Fmt.ofCode (n : Nat) : Fmt :=
  match n with
  | 0 => .n9 | 1 => .n9e | 2 => .n18 | 3 => .n36 | 4 => .i9 | 5 => .i18 | 6 => .i36 | _ => .u36

/-- The 3-bit code of a format (R232). -/
def Fmt.code : Fmt → Nat
  | .n9 => 0 | .n9e => 1 | .n18 => 2 | .n36 => 3 | .i9 => 4 | .i18 => 5 | .i36 => 6 | .u36 => 7

/-- Size of an element in nonets (R14, R17). -/
def Fmt.size : Fmt → Nat
  | .n9 | .n9e | .i9 => 1
  | .n18 | .i18 => 2
  | .n36 | .i36 | .u36 => 4

/-- The format is N9 or N9e: the formats a tensor scale applies to (R28). -/
def Fmt.scaled : Fmt → Bool
  | .n9 | .n9e => true
  | _ => false

/-- The format is a floating format. -/
def Fmt.isFloat : Fmt → Bool
  | .n9 | .n9e | .n18 | .n36 => true
  | _ => false

/-- Width of the fraction field F (R17). -/
def Fmt.frac : Fmt → Nat
  | .n9 => 4 | .n9e => 3 | .n18 => 11 | _ => 24

/-- Width of the exponent field (R17). -/
def Fmt.expw : Fmt → Nat
  | .n9 => 4 | .n9e => 5 | .n18 => 6 | _ => 11

/-- The bias b (R17). -/
def Fmt.bias : Fmt → Nat
  | .n9 => 7 | .n9e => 15 | .n18 => 31 | _ => 1023

/-- An exact value: NaN, an infinity, or (−1)^neg × m × 2^e (m = 0 is a signed zero). -/
inductive Fl where
  | nan
  | inf (neg : Bool)
  | fin (neg : Bool) (m : Nat) (e : Int)
  deriving DecidableEq, Repr

/-- Plus zero. -/
def Fl.zero : Fl := .fin false 0 0

/-- The value is NaN. -/
def Fl.isNan : Fl → Bool
  | .nan => true
  | _ => false

/-- The value is an infinity. -/
def Fl.isInf : Fl → Bool
  | .inf _ => true
  | _ => false

/-- The value is a zero of either sign. -/
def Fl.isZero : Fl → Bool
  | .fin _ m _ => m == 0
  | _ => false

/-- The value is finite. -/
def Fl.isFin : Fl → Bool
  | .fin .. => true
  | _ => false

/-- The numeric status flags, in the bit positions of R39: NAN_IN [4], INV [3], OVF [2], UNF [1], INT_SAT [0]. -/
abbrev NumFlags := BitVec 5

/-- No flag. -/
def nfNone : NumFlags := 0
/-- NAN_IN (R39). -/
def nfNan : NumFlags := 16
/-- INV (R39). -/
def nfInv : NumFlags := 8
/-- OVF (R39). -/
def nfOvf : NumFlags := 4
/-- UNF (R39). -/
def nfUnf : NumFlags := 2
/-- INT_SAT (R39). -/
def nfSat : NumFlags := 1

/-- The value an encoding of a format stands for, before any tensor scale (R18, R20 to R22). -/
def decodeFl (f : Fmt) (v : Nat) : Fl :=
  match f with
  | .i9 => let i := sgn 9 v; .fin (decide (i < 0)) i.natAbs 0
  | .i18 => let i := sgn 18 v; .fin (decide (i < 0)) i.natAbs 0
  | .i36 => let i := sgn 36 v; .fin (decide (i < 0)) i.natAbs 0
  | .u36 => .fin false (v % 2 ^ 36) 0
  | f =>
    let s := nbit v (f.expw + f.frac)
    let e := nbits v (f.expw + f.frac - 1) f.frac
    let fr := nbits v (f.frac - 1) 0
    let top := 2 ^ f.expw - 1
    if f.scaled && v % 512 == 511 then .nan
    else if !f.scaled && e == top && fr != 0 then .nan
    else if !f.scaled && e == top then .inf s
    else if e == 0 then .fin s fr (1 - (f.bias : Int) - f.frac)
    else .fin s (2 ^ f.frac + fr) ((e : Int) - f.bias - f.frac)

/-- Multiply by 2^t (R27). Exact. -/
def Fl.scale (t : Int) : Fl → Fl
  | .fin s m e => .fin s m (e + t)
  | x => x

/-- The opposite. -/
def Fl.neg : Fl → Fl
  | .nan => .nan
  | .inf s => .inf (!s)
  | .fin s m e => .fin (!s) m e

/-- The magnitude. -/
def Fl.abs : Fl → Fl
  | .nan => .nan
  | .inf _ => .inf false
  | .fin _ m e => .fin false m e

/-- The signed integer mantissa of a value at exponent `e0`, which is at most its own exponent. -/
def mantAt (e0 : Int) (neg : Bool) (m : Nat) (e : Int) : Int :=
  let k := m * 2 ^ (e - e0).toNat
  if neg then -(k : Int) else k

/-- The exact sum, with the INV flag for ∞ − ∞ and the sign rule of zero sums (R24). NAN_IN is the caller's. -/
def Fl.add (a b : Fl) : Fl × NumFlags :=
  match a, b with
  | .nan, _ => (.nan, nfNone)
  | _, .nan => (.nan, nfNone)
  | .inf s, .inf t => if s = t then (.inf s, nfNone) else (.nan, nfInv)
  | .inf s, _ => (.inf s, nfNone)
  | _, .inf t => (.inf t, nfNone)
  | .fin s m e, .fin t n f =>
    let e0 := min e f
    let k := mantAt e0 s m e + mantAt e0 t n f
    if k = 0 then (.fin (s && t && m == 0 && n == 0) 0 0, nfNone)
    else (.fin (decide (k < 0)) k.natAbs e0, nfNone)

/-- The exact product, with the INV flag for 0 × ∞ (R24). -/
def Fl.mul (a b : Fl) : Fl × NumFlags :=
  match a, b with
  | .nan, _ => (.nan, nfNone)
  | _, .nan => (.nan, nfNone)
  | .inf s, .inf t => (.inf (s != t), nfNone)
  | .inf s, .fin t n _ => if n = 0 then (.nan, nfInv) else (.inf (s != t), nfNone)
  | .fin s m _, .inf t => if m = 0 then (.nan, nfInv) else (.inf (s != t), nfNone)
  | .fin s m e, .fin t n f => (.fin (s != t) (m * n) (e + f), nfNone)

/-- Exact comparison of two values neither of which is NaN: a < b. −0 equals +0 (R24). -/
def Fl.lt (a b : Fl) : Bool :=
  match a, b with
  | .nan, _ => false
  | _, .nan => false
  | .inf s, .inf t => s && !t
  | .inf s, _ => s
  | _, .inf t => !t
  | .fin s m e, .fin t n f =>
    let e0 := min e f
    decide (mantAt e0 s m e < mantAt e0 t n f)

/-- Exact equality of two values neither of which is NaN. −0 equals +0 (R24). -/
def Fl.eqv (a b : Fl) : Bool := !a.isNan && !b.isNan && !(a.lt b) && !(b.lt a)

/-- The sign bit of a value. -/
def Fl.sign : Fl → Bool
  | .nan => false
  | .inf s => s
  | .fin s _ _ => s

/-- Maximum: NaN wins, and +0 counts as larger than −0 (R24). -/
def Fl.max (a b : Fl) : Fl :=
  if a.isNan || b.isNan then .nan
  else if a.lt b then b
  else if b.lt a then a
  else if a.sign then b else a

/-- Minimum: NaN wins, and −0 counts as smaller than +0 (R24). -/
def Fl.min (a b : Fl) : Fl :=
  if a.isNan || b.isNan then .nan
  else if a.lt b then a
  else if b.lt a then b
  else if a.sign then a else b

/-- The exponent ⌊log₂|x|⌋ of a finite nonzero value (R187). -/
def Fl.exponent : Fl → Int
  | .fin _ m e => (Nat.log2 m : Int) + e
  | _ => 0

/-! ### Rounding -/

/-- The rounding of one value: nearest-even, or stochastic with its 16 random bits (R29, R30). -/
inductive Rnd where
  | near
  | stoch (r : Nat)
  deriving DecidableEq, Repr

/-- Round a magnitude m × 2^e to a multiple of 2^ue (R30): the integer number of units. -/
def roundUnits (rnd : Rnd) (m : Nat) (e ue : Int) : Nat :=
  if ue ≤ e then m * 2 ^ (e - ue).toNat
  else
    let k := (ue - e).toNat
    let n := m / 2 ^ k
    let rem := m % 2 ^ k
    match rnd with
    | .near =>
      if 2 * rem > 2 ^ k || (2 * rem == 2 ^ k && n % 2 == 1) then n + 1 else n
    | .stoch r =>
      if rem != 0 && rem * 65536 / 2 ^ k + r ≥ 65536 then n + 1 else n

/-- Canonical NaN of a floating format (R20, R21). -/
def nanCode (f : Fmt) : Nat :=
  match f with
  | .n9 | .n9e => 0x1FF
  | .n18 => 0x1FC00
  | _ => 0x7FF800000

/-- Infinity of N18 or N36, with its sign (R21). -/
def infCode (f : Fmt) (neg : Bool) : Nat :=
  match f with
  | .n18 => 0x1F800 + (if neg then 0x20000 else 0)
  | _ => 0x7FF000000 + (if neg then 0x800000000 else 0)

/-- What an overflow gives: infinity in N18 and N36, the largest value of the sign in N9 and N9e (R32). -/
def ovfCode (f : Fmt) (neg : Bool) : Nat :=
  if f.scaled then (if neg then 0x1FE else 0x0FF) else infCode f neg

/-- Encode a finite magnitude of `n` units of 2^ue, already a value of the format. -/
def encodeUnits (f : Fmt) (neg : Bool) (n : Nat) (ue : Int) : Nat :=
  let s := if neg then 2 ^ (f.expw + f.frac) else 0
  if n < 2 ^ f.frac then s + n
  else
    let (n, ue) := if n ≥ 2 ^ (f.frac + 1) then (n / 2, ue + 1) else (n, ue)
    s + (ue + f.frac + f.bias).toNat * 2 ^ f.frac + (n - 2 ^ f.frac)

/-- The largest finite magnitude of the sign, as (m, e): m × 2^e (R20, R31). -/
def maxFinite (f : Fmt) (neg : Bool) : Nat × Int :=
  match f with
  | .n9 => (if neg then 30 else 31, 4)
  | .n9e => (if neg then 14 else 15, 13)
  | .n18 => (2 ^ 12 - 1, 20)
  | _ => (2 ^ 25 - 1, 999)

/-- Convert a value to a floating format (R30 to R32, R38): its encoding and the flags. A NaN sets NAN_IN when `narrow`
is set (the narrowing conversions of R38); a widening sets nothing (R37). -/
def toFloat (f : Fmt) (rnd : Rnd) (narrow : Bool) (x : Fl) : Nat × NumFlags :=
  match x with
  | .nan => (nanCode f, if narrow then nfNan else nfNone)
  | .inf s => if f.scaled then (ovfCode f s, nfOvf) else (infCode f s, nfNone)
  | .fin s m e =>
    if m = 0 then (encodeUnits f s 0 0, nfNone)
    else
      let E := (Nat.log2 m : Int) + e
      let ue := max (E - f.frac) (1 - (f.bias : Int) - f.frac)
      let n := roundUnits rnd m e ue
      let (mm, me) := maxFinite f s
      if n = 0 then (encodeUnits f s 0 0, nfUnf)
      else if (Fl.fin false mm me).lt (.fin false n ue) then (ovfCode f s, nfOvf)
      else (encodeUnits f s n ue, nfNone)

/-- Convert to an integer format (R38, R39), with saturation. -/
def toInteger (lo hi : Int) (w : Nat) (rnd : Rnd) (x : Fl) : Nat × NumFlags :=
  match x with
  | .nan => (0, nfInv ||| nfNan)
  | .inf s => (enc2 w (if s then lo else hi), nfSat)
  | .fin s m e =>
    let n := roundUnits rnd m e 0
    let i : Int := if s then -(n : Int) else n
    if i < lo then (enc2 w lo, nfSat) else if i > hi then (enc2 w hi, nfSat) else (enc2 w i, nfNone)

/-- Width of a format in bits. -/
def Fmt.width (f : Fmt) : Nat := 9 * f.size

/-- Convert a value to any format (R37, R38). `src` is the format it comes from: to a wider floating format, or to its
own, a NaN sets no flag. -/
def toFmt (src f : Fmt) (rnd : Rnd) (x : Fl) : Nat × NumFlags :=
  match f with
  | .i9 => toInteger (-256) 255 9 rnd x
  | .i18 => toInteger (-131072) 131071 18 rnd x
  | .i36 => toInteger (-(2 ^ 35)) (2 ^ 35 - 1) 36 rnd x
  | .u36 => toInteger 0 (2 ^ 36 - 1) 36 rnd x
  | f =>
    let narrow := src.isFloat && src != f && !(f.size > src.size)
    toFloat f rnd narrow x

/-- Encode a value in N36, rounding in the mode given (R30 to R32). No NAN_IN. -/
def toN36 (rnd : Rnd) (x : Fl) : Val36 × NumFlags :=
  let r := toFloat .n36 rnd false x
  (BitVec.ofNat 36 r.1, r.2)

/-- The value of an N36 encoding. -/
def ofN36 (v : Val36) : Fl := decodeFl .n36 v.toNat

/-- The value an operand stands for: decoded, with the tensor scale of N9 and N9e (R27, R28). -/
def loadFl (f : Fmt) (scale : Int) (v : Nat) : Fl :=
  if f.scaled then (decodeFl f v).scale scale else decodeFl f v

/-- Store a value in a format under a tensor scale (R27, R28, R38). -/
def storeFl (src f : Fmt) (scale : Int) (rnd : Rnd) (x : Fl) : Nat × NumFlags :=
  toFmt src f rnd (if f.scaled then x.scale (-scale) else x)

/-! ### The stochastic-rounding generator (R33 to R36) -/

/-- rotate36 of R36. -/
def rotate36 (v k : Nat) : Nat := (v * 2 ^ k) % 2 ^ 36 + v % 2 ^ 36 / 2 ^ (36 - k)

/-- One round of R36 over (a, b, c). -/
def rngRound (x : Nat × Nat × Nat) : Nat × Nat × Nat :=
  let (a, b, c) := x
  let a := (a + b) % 2 ^ 36
  let c := rotate36 (c ^^^ a) 13
  let b := (b * 0x5DEECE66D + c) % 2 ^ 36
  let a := a ^^^ rotate36 b 23
  (a, b, c)

/-- The 16 random bits of the five keys (R33, R36). -/
def rng16 (seed step core cell index : Nat) : Nat :=
  let a := (seed + step * 0x9E3779B97) % 2 ^ 36
  let b := (core * 2 ^ 18 + cell) % 2 ^ 36
  let x := rngRound (rngRound (rngRound (rngRound (a, b, index % 2 ^ 36))))
  x.2.2 % 2 ^ 16

/-- The keys of an engine's stochastic roundings that do not change within a step (R33). -/
structure RngKey where
  seed : Nat
  step : Nat
  core : Nat
  deriving DecidableEq, Repr

/-- The rounding of one element: nearest-even, or the generator's bits for its cell and index (R34). -/
def rndOf (stoch : Bool) (k : RngKey) (cell index : Nat) : Rnd :=
  if stoch then .stoch (rng16 k.seed k.step k.core cell index) else .near

/-! ### Accumulation (R23) -/

/-- The product of two operands as it is added: exact for N9, N9e and N18 operands, rounded to N36 nearest-even when an
operand is N36 (R23). Flags of that rounding are returned. -/
def product (f g : Fmt) (a b : Fl) : Fl × NumFlags :=
  let (p, fl) := a.mul b
  if f == .n36 || g == .n36 then
    let (v, fl2) := toN36 .near p
    (ofN36 v, fl ||| fl2)
  else (p, fl)

/-- One add into an N36 accumulator, rounded once in the mode given (R23): the new accumulator and the flags. NAN_IN is
for a NaN operand, not for a NaN the accumulator holds (R140). -/
def accAdd (rnd : Rnd) (acc : Val36) (p : Fl) : Val36 × NumFlags :=
  let (x, fl) := (ofN36 acc).add p
  let (v, fl2) := toN36 rnd x
  (v, fl ||| fl2)

/-- The exact sum of N36 values, when every one is finite (R132, R156). -/
def exactSum : List Fl → Fl
  | [] => .zero
  | x :: xs => (x.add (exactSum xs)).1

/-- The outcome of one checksum comparison (R132). -/
inductive ChkOut where
  | unchecked | pass | near | fail
  deriving DecidableEq, Repr

/-- |S − X| against τ and τ / 4, with τ = (n + lanes) × G × 2^−22 + 2^−1022 (R132, R156). `bad` is the condition under
which the comparison is not made. -/
def chkCompare (lanes n : Nat) (vals : List Fl) (poisoned : Bool) (x g : Fl) : ChkOut :=
  if poisoned || !(vals.all Fl.isFin) || !x.isFin || !g.isFin then .unchecked
  else
    let diff := ((exactSum vals).add x.neg).1.abs
    let tau := (((Fl.fin false (n + lanes) (-22)).mul g).1.add (.fin false 1 (-1022))).1
    if !((tau.scale (-2)).lt diff) then .pass
    else if !(tau.lt diff) then .near
    else .fail

end Sys2Proof.Machine
end

