-- ==== Sys2Proof/Machine/Sparse.lean ====
section
/-! DEFINITION. Sparse stores: a finite list of (key, value) pairs with strictly rising keys, and what an unlisted key
reads as. Memories are kept by `write`, which lists no value equal to that default (one canonical form); tables of
larger records are kept by `put`. -/

namespace Sys2Proof.Machine

/-- A sparse store. -/
structure SMap (α : Type) where
  entries : List (Nat × α)
  deriving DecidableEq, Repr

/-- The store that lists nothing. -/
def SMap.empty {α : Type} : SMap α := ⟨[]⟩

/-- Look a key up: the first entry that holds it. -/
def lookupL {α : Type} (d : α) : List (Nat × α) → Nat → α
  | [], _ => d
  | (a, v) :: r, k => if k = a then v else lookupL d r k

/-- Put a value at a key of a list with rising keys. -/
def insertL {α : Type} : List (Nat × α) → Nat → α → List (Nat × α)
  | [], k, v => [(k, v)]
  | (a, w) :: r, k, v => if k = a then (k, v) :: r else if k < a then (k, v) :: (a, w) :: r else (a, w) :: insertL r k v

/-- Take a key out of a list. -/
def eraseL {α : Type} : List (Nat × α) → Nat → List (Nat × α)
  | [], _ => []
  | (a, w) :: r, k => if k = a then eraseL r k else (a, w) :: eraseL r k

/-- Keys rise strictly from above `lo` (`none`: no bound yet). -/
def risingFrom {α : Type} : Option Nat → List (Nat × α) → Bool
  | _, [] => true
  | none, (a, _) :: r => risingFrom (some a) r
  | some lo, (a, _) :: r => decide (lo < a) && risingFrom (some a) r

/-- The value at a key; `d` is what an unlisted key reads as. -/
def SMap.get {α : Type} (m : SMap α) (d : α) (k : Nat) : α := lookupL d m.entries k

/-- Put a value at a key. -/
def SMap.put {α : Type} (m : SMap α) (k : Nat) (v : α) : SMap α := ⟨insertL m.entries k v⟩

/-- Take a key out. -/
def SMap.erase {α : Type} (m : SMap α) (k : Nat) : SMap α := ⟨eraseL m.entries k⟩

/-- Write a memory: a value equal to the default is not listed. -/
def SMap.write {α : Type} [DecidableEq α] (m : SMap α) (d : α) (k : Nat) (v : α) : SMap α :=
  if v = d then m.erase k else m.put k v

/-- Write consecutive keys from `k`. -/
def SMap.writeList {α : Type} [DecidableEq α] (m : SMap α) (d : α) : Nat → List α → SMap α
  | _, [] => m
  | k, v :: vs => SMap.writeList (m.write d k v) d (k + 1) vs

/-- Read `n` consecutive keys from `k`. -/
def SMap.readList {α : Type} (m : SMap α) (d : α) : Nat → Nat → List α
  | _, 0 => []
  | k, n + 1 => m.get d k :: SMap.readList m d (k + 1) n

/-- Keep the entries whose key satisfies a test. -/
def SMap.keep {α : Type} (m : SMap α) (p : Nat → Bool) : SMap α := ⟨m.entries.filter fun e => p e.1⟩

/-- Apply a function to every listed value. -/
def SMap.mapVals {α : Type} (m : SMap α) (f : Nat → α → α) : SMap α := ⟨m.entries.map fun e => (e.1, f e.1 e.2)⟩

/-- The canonical form: keys rise strictly. -/
def SMap.rising {α : Type} (m : SMap α) : Bool := risingFrom none m.entries

/-- The canonical form of a memory: keys rise strictly and no entry holds what an unlisted key reads as. -/
def SMap.wf {α : Type} [DecidableEq α] (m : SMap α) (d : α) : Bool :=
  m.rising && m.entries.all fun e => decide (e.2 ≠ d)

end Sys2Proof.Machine
end

