-- ==== Sys2Proof/Machine/CoreState.lean ====
section
/-! DEFINITION. The state one core holds: its engines and queues, coupling state, scratchpad, handle table, the datapath
state of the six engines, and the copy saved at a step commit. -/

namespace Sys2Proof.Machine

/-- A register word with its poison bit (R94). -/
structure PWord where
  v : Word
  p : Bool
  deriving DecidableEq, Repr

/-- The STATE field of an engine state word (R50). -/
inductive EngSt where
  | off | idle | running | waiting | draining | halted
  deriving DecidableEq, Repr

/-- One open hardware-loop level: iterations left (the present one included), the first body instruction, and the
instruction after the body (R83, R86). -/
structure Level where
  remaining : Nat
  start : Nat
  stop : Nat
  deriving DecidableEq, Repr

/-- A task context of an engine (R288, R290): its queue, program counter, loop levels (innermost first) and loop buffer.
An engine with one context has context 0 alone. `skip` counts instructions of a skipped loop body that have not reached the
queue yet (R83), and `ended` is set once its stream has met HALT (R87). `begun` is the number, from the program's first, of the step after the last
whose first instruction it has issued (R437). `held` is the cycle from which its head has been held (R63), `slipFrom` the
cycle from which it has so held the engine itself (R60, R289), `scheduled` its SCHED bit.
`waited` says that the wait of its head has been satisfied and the head is still held, which R318 alone can do; `headMask` is the row
mask as it stood when a head that is held reached the head (R121). -/
structure Ctx where
  queue : List Word
  pc : Nat
  levels : List Level
  buf : List Word
  bufBase : Nat
  skip : Nat
  supplied : Nat
  total : Nat
  ended : Bool
  begun : Nat
  held : Option Nat
  slipFrom : Nat
  scheduled : Bool
  waited : Bool
  headMask : Option (BitVec 144)
  deriving DecidableEq, Repr

/-- An empty context. -/
def Ctx.reset : Ctx := ⟨[], 0, [], [], 0, 0, 0, 0, false, 0, none, 0, false, false, none⟩

/-- An engine: its state, its contexts, the context in turn, and the first cycle in which the next instruction can be at
the head (R42, R112, R152, R164). `boundary` is set in the SE from the issue of STEP to the commit (R100). -/
structure Engine where
  st : EngSt
  nctx : Nat
  cur : Nat
  ctxs : SMap Ctx
  headFree : Nat
  boundary : Bool
  haltPend : Bool
  deriving DecidableEq, Repr

/-- An engine after reset: Off (R50). -/
def Engine.reset : Engine := ⟨.off, 1, 0, .empty, 0, false, false⟩

/-- A ring slot state (R49). -/
structure Ring where
  en : Bool
  prod : Nat
  cons : Nat
  last : Nat
  head : Nat
  tail : Nat
  full : Nat
  deriving DecidableEq, Repr

/-- A ring after reset (R49). -/
def Ring.reset : Ring := ⟨false, 0, 0, 0, 0, 0, 0⟩

/-- A ring fill position (R266). -/
structure RingPos where
  next : Nat
  inflight : Nat
  deriving DecidableEq, Repr

/-- A fill position after reset. -/
def RingPos.reset : RingPos := ⟨0, 0⟩

/-- The coupling state: flags, counters, targets, ring slot states and fill positions (R47 to R49, R266). -/
structure Coupling where
  flags : BitVec 64
  cnt : SMap Nat
  tgt : SMap Nat
  rings : SMap Ring
  pos : SMap RingPos
  deriving DecidableEq, Repr

/-- Coupling state after reset. -/
def Coupling.reset : Coupling := ⟨0, .empty, .empty, .empty, .empty⟩

/-- The signal overrun record (R58). -/
structure SigRec where
  valid : Bool
  engine : Nat
  flag : Nat
  pc : Nat
  deriving DecidableEq, Repr

/-- The first-slip record (R61). -/
structure SlipRec where
  valid : Bool
  engine : Nat
  wkind : Nat
  wid : Nat
  pc : Nat
  deriving DecidableEq, Repr

/-- The status registers of a core (R46, R58, R60, R61, R91). -/
structure CoreStatus where
  sigOvr : Bool
  cntWrap : Bool
  slip : Bool
  progErr : Bool
  sigRec : SigRec
  slipCount : Nat
  firstSlip : SlipRec
  stepSlip : Nat
  feedStall : Nat
  deriving DecidableEq, Repr

/-- Status registers after reset: all zero. -/
def CoreStatus.reset : CoreStatus :=
  ⟨false, false, false, false, ⟨false, 0, 0, 0⟩, 0, ⟨false, 0, 0, 0, 0⟩, 0, 0⟩

/-- A scratchpad word: data, poison bit, and whether it has been written (the unwritten bit is its opposite, R236). -/
structure SCell where
  v : Word
  p : Bool
  wr : Bool
  deriving DecidableEq, Repr

/-- What a word reads as that nothing has written: zero, clean, unwritten (R238, R241). -/
def SCell.blank : SCell := ⟨0, false, false⟩

/-- The scratchpad of a core (R224, R236 to R242). Words are keyed by word index. `upset` holds the number of bit errors
a physical upset has left in a word's cells; no command sets it. Bank sets are 16-bit masks, and `drainFrom` holds the chip cycle in which a
bank began to drain. -/
structure Scratch where
  cells : SMap SCell
  upset : SMap Nat
  banksReq : Nat
  banksOn : Nat
  banksWaking : Nat
  banksDraining : Nat
  drainFrom : SMap Nat
  ue : Bool
  rbw : Bool
  rbwAddr : Nat
  corrected : Nat
  uncorrected : Nat
  deriving DecidableEq, Repr

/-- The scratchpad after reset: every bank off (R240, R241). -/
def Scratch.reset : Scratch := ⟨.empty, .empty, 0, 0, 0, 0, .empty, false, false, 0, 0, 0⟩

/-- A handle (R232, R233). -/
structure Handle where
  valid : Bool
  skewed : Bool
  prot : Nat
  fmt : Fmt
  scale : Int
  base : Nat
  rvalid : Bool
  ring : Nat
  size : Nat
  deriving DecidableEq, Repr

/-- A handle not in use. -/
def Handle.reset : Handle := ⟨false, false, 0, .n9, 0, 0, false, 0, 0⟩

/-- A credit register (R244). -/
structure Credit where
  chip : Nat
  core : Nat
  valid : Bool
  sigen : Bool
  counter : Nat
  credit : Nat
  deriving DecidableEq, Repr

/-- A credit register after reset. -/
def Credit.reset : Credit := ⟨0, 0, false, false, 0, 0⟩

/-- A decoupling queue (R270 to R275): state 0 Empty, 1 Busy, 2 Ready. `src` is the global source address; `sent` counts the
64-nt requests that have left, `landed` lists those that have landed; `cls` is their regulator class; `tid` names the LOADQ;
`upset` holds bit errors of its words, which no command sets. -/
structure DQueue where
  st : Nat
  size : Nat
  src : Nat
  data : SMap PNt
  sent : Nat
  landed : List Nat
  poison : Bool
  err : Bool
  cls : Nat
  tid : Nat
  upset : SMap Nat
  asked : Nat
  refused : List Nat
  deriving DecidableEq, Repr

/-- An Empty queue. -/
def DQueue.reset : DQueue := ⟨0, 0, 0, .empty, 0, [], false, false, 0, 0, .empty, 0, []⟩

/-- A bandwidth regulator (R277): tokens are kept in 64ths, the 6-bit fraction of R278. -/
structure Regulator where
  rate : Nat
  depth : Nat
  tokens64 : Nat
  throttle : Nat
  deriving DecidableEq, Repr

/-- A regulator after reset (R277). -/
def Regulator.reset : Regulator := ⟨64, 2048, 2048 * 64, 0⟩

/-- What a send carries (R280, R283, R285, R302, R307, R314). -/
inductive SendKind where
  | store (dst : Nat)
  | mcast (mset off : Nat)
  | light (core : Nat)
  | msg (endn tag len seq pos : Nat)
  | pad (endn len pos : Nat)
  | comb (endn : Nat)
  deriving DecidableEq, Repr

/-- A send: its number, its engine, what it carries, the core-relative source offset and size, the record nonets read so far (the
header word of a message or pad included), how many nonets have left, its regulator class (`none`: traffic of the ME, which no
regulator holds), the copies still to land, the first cycle it may start in, and the cycle it started in. -/
structure Send where
  tid : Nat
  eng : Nat
  ctx : Nat
  pc : Nat
  kind : SendKind
  src : Nat
  size : Nat
  data : List PNt
  gone : Nat
  cls : Option Nat
  dests : List Nat
  ready : Nat
  start : Nat
  deriving DecidableEq, Repr

/-- The transfer engine's state (R101, R104, R244, R270, R276 to R286). `localFree`, `nearFree` and `sendFree` are the first
cycles in which each path is free; `sends` wait for their start, `outb` are in the outbound buffer, `net` are on their way;
`lightq` waits for the core's slot, and `landing` are records whose landing has begun before all of their source has been read (R304). -/
structure Te where
  areg : SMap Nat
  credits : SMap Credit
  dq : SMap DQueue
  regs : SMap Regulator
  msets : SMap (List (Nat × Nat))
  localFree : Nat
  nearFree : Nat
  sendFree : Nat
  sends : List Send
  outb : List Send
  net : List Send
  landing : List Send
  fill : Nat
  outStall : Nat
  lightq : List Send
  lightValid : Bool
  lightCounter : Nat
  lightBase : Nat
  lightRefused : Bool
  lightLanded : Nat
  deriving DecidableEq, Repr

/-- The transfer engine after reset. -/
def Te.reset : Te :=
  ⟨.empty, .empty, .empty, .empty, .empty, 0, 0, 0, [], [], [], [], 0, 0, [], false, 0, 0, false, 0⟩

/-- An accumulator: its N36 value, its poison bit and its update index (R107, R142). -/
structure Acc where
  v : Val36
  p : Bool
  idx : Nat
  deriving DecidableEq, Repr

/-- A zeroed accumulator. -/
def Acc.zero : Acc := ⟨0, false, 0⟩

/-- A checksum entry: the sum X and the magnitude G (R130, R156). -/
structure Chk where
  x : Val36
  g : Val36
  deriving DecidableEq, Repr

/-- A zeroed checksum entry. -/
def Chk.zero : Chk := ⟨0, 0⟩

/-- One accumulator set of the array with its checksum column (by row) and row (by column) (R107, R130). -/
structure AccSet where
  acc : SMap Acc
  byRow : SMap Chk
  byCol : SMap Chk
  deriving DecidableEq, Repr

/-- A zeroed set. -/
def AccSet.zero : AccSet := ⟨.empty, .empty, .empty⟩

/-- An operand descriptor (R114); START is held in 17 bits (R117). -/
structure Desc where
  h : Nat
  orient : Bool
  turn : Bool
  half : Bool
  start : Nat
  deriving DecidableEq, Repr

/-- A descriptor after program load. -/
def Desc.reset : Desc := ⟨0, false, false, false, 0⟩

/-- An element of the turn buffer: its code, the format it was written in, and its poison (R137, R176). -/
structure TbEl where
  code : Nat
  fmt : Nat
  p : Bool
  deriving DecidableEq, Repr

/-- An element of the turn buffer that nothing has written. -/
def TbEl.zero : TbEl := ⟨0, 0, false⟩

/-- A format tag of a turn-buffer half (R137). -/
structure TbTag where
  fmt : Nat
  scale : Int
  deriving DecidableEq, Repr

/-- A drain in progress: the cycle F of row 0, CLR, the rows drained so far, the tile-queue entry it took in F, and the context
and program counter of its instruction (R124, R128). The comparisons of its rows and columns are on their way by themselves (R132). -/
structure Drain where
  first : Nat
  clr : Bool
  rows : List (List Acc)
  slot : Nat
  ctx : Nat
  pc : Nat
  deriving DecidableEq, Repr

/-- An operand element of a stream: its exact scaled value and its poison (R116). -/
structure OpEl where
  x : Fl
  p : Bool
  deriving DecidableEq, Repr

/-- One problem of a stream's pair: whether an operand is N36 (R23), the column operand by enabled array row, the row operand
by array column (R108). -/
structure Prob where
  n36 : Bool
  a : List (Nat × OpEl)
  b : List (Nat × OpEl)
  deriving DecidableEq, Repr

/-- The outer-product engine's state (R107, R114, R121, R127, R128, R130, R134 to R137). The tile queue's four
entries are 0 to 3, of which `tqFill` from `tqHead` on are held; `tqMem` keeps what each entry last took, by 20,736 × entry +
144 × row + column (R175). The shadow pipe is busy from `busyFrom` to `busyTo`, and a PRELOAD reads until `preloadTo`. -/
structure Ope where
  live : AccSet
  shadow : AccSet
  descs : SMap Desc
  mask : BitVec 144
  tqFill : Nat
  tqHead : Nat
  tqMem : SMap Acc
  tb : SMap TbEl
  tag0 : Option TbTag
  tag1 : Option TbTag
  drain : Option Drain
  busyFrom : Nat
  busyTo : Nat
  preloadTo : Nat
  chkFail : Bool
  chkNear : Bool
  checked : Nat
  near : Nat
  unchecked : Nat
  ns : NumFlags
  deriving DecidableEq, Repr

/-- The outer-product engine at program load (R141). -/
def Ope.reset : Ope :=
  ⟨.zero, .zero, .empty, BitVec.allOnes 144, 0, 0, .empty, .empty, none, none, none, 1, 0, 0, false, false, 0, 0, 0, 0⟩

/-- An element of a held vector: its exact scaled value and its poison (R143). -/
structure HeldEl where
  x : Fl
  nan : Bool
  p : Bool
  deriving DecidableEq, Repr

/-- A held element that nothing has loaded. -/
def HeldEl.zero : HeldEl := ⟨.zero, false, false⟩

/-- The stream configuration of the MVE (R146). -/
structure MCfg where
  fmt : Fmt
  scale : Int
  lanes : Nat
  estart : Nat
  deriving DecidableEq, Repr

/-- The stream configuration at program load. DESIGN CHOICE (log 4): the spec gives no initial value. -/
def MCfg.reset : MCfg := ⟨.n9, 0, 1, 0⟩

/-- A stream in progress: its latched configuration and operands, the next group, the start cycle and the cycle of its last
request, and the context and program counter of its instruction (R148 to R153). `asked` counts the requests made, and `data` holds
what they have read and no group has taken yet (R151, R251). -/
structure MStream where
  cfg : MCfg
  addr : Nat
  groups : Nat
  vecs : List Nat
  rnd : Bool
  emit : Bool
  next : Nat
  start : Nat
  lastReq : Nat
  asked : Nat
  data : List PNt
  ctx : Nat
  pc : Nat
  deriving DecidableEq, Repr

/-- The matrix-vector engine's state (R142, R143, R146, R153, R156 to R158). The result queue's eight entries are 0 to 7, of
which `rqFill` from `rqHead` on are held; `rqMem` keeps what each entry last took, by 96 × entry + lane, and `rqVec` its vector. -/
structure Mve where
  cfg : MCfg
  held : SMap HeldEl
  acc : SMap Acc
  lane : SMap Chk
  rqFill : Nat
  rqHead : Nat
  rqMem : SMap Acc
  rqVec : SMap Nat
  streams : List MStream
  chkFail : Bool
  chkNear : Bool
  checked : Nat
  near : Nat
  unchecked : Nat
  ns : NumFlags
  deriving DecidableEq, Repr

/-- The matrix-vector engine at program load. -/
def Mve.reset : Mve :=
  ⟨.reset, .empty, .empty, .empty, 0, 0, .empty, .empty, [], false, false, 0, 0, 0, 0⟩

/-- The configuration of the VE (R171). -/
structure VCfg where
  fmt : Fmt
  rnd : Bool
  msk : Bool
  mslot : Nat
  len : Nat
  seg : Nat
  empty : Bool
  deriving DecidableEq, Repr

/-- The configuration at program load (R171). -/
def VCfg.reset : VCfg := ⟨.n9, false, false, 0, 1, 1, false⟩

/-- A pointer register (R172). -/
structure VPtr where
  h : Nat
  orient : Bool
  off : Nat
  deriving DecidableEq, Repr

/-- A pointer after reset. -/
def VPtr.reset : VPtr := ⟨0, false, 0⟩

/-- A stats buffer (R187, R189). -/
structure Stats where
  poisoned : Bool
  base : Int
  total : Nat
  valid : Bool
  maxexp : Int
  zeros : Nat
  nans : Nat
  infs : Nat
  bins : SMap Nat
  deriving DecidableEq, Repr

/-- A cleared stats buffer. -/
def Stats.reset : Stats := ⟨false, 0, 0, false, 0, 0, 0, 0, .empty⟩

/-- The vector engine's state (R165 to R172, R183, R187, R191, R192, R35). `residueFault` is a latent physical fault of a
lane or adder that the next operation's residue check meets, and `tabFaults` are the table entries whose parity is wrong, as (function, derivative, index),
which a VTAB meets that reads one (R191); no command sets either. -/
structure Ve where
  cfg : VCfg
  ptrs : SMap VPtr
  cache : SMap PNt
  vcnt : Nat
  vcntP : Bool
  stats : SMap Stats
  resFail : Bool
  resCount : Nat
  rndCtr : Nat
  residueFault : Bool
  tabFaults : List (Nat × Bool × Nat)
  ns : NumFlags
  deriving DecidableEq, Repr

/-- The vector engine at program load. -/
def Ve.reset : Ve := ⟨.reset, .empty, .empty, 0, false, .empty, false, 0, 0, false, [], 0⟩

/-- A record held in a receive ring: its word position, its words, whether it is a pad, and its header (R301, R303). -/
structure MsgRec where
  pos : Nat
  words : Nat
  pad : Bool
  tag : Nat
  seq : Nat
  len : Nat
  hp : Bool
  deriving DecidableEq, Repr

/-- A channel end (R296 to R298). ROLE 0 unused, 1 send, 2 receive, 3 combining send. `cap` is the size R of the
receive ring in words, which the loader knows at both ends (R300, R302). `recs` are the records landed and not yet handled,
oldest first; `ret` lists the credit on its way back to a send end, as words and the cycle they arrive in (0: not fixed). -/
structure MEnd where
  role : Nat
  session : Bool
  cls : Nat
  res : Bool
  prio : Nat
  pchip : Nat
  pcore : Nat
  pend : Nat
  handle : Nat
  dly : Nat
  cap : Nat
  credit : Nat
  pos : Nat
  blocked : Bool
  seq : Nat
  count : Nat
  stalls : Nat
  recs : List MsgRec
  ret : List (Nat × Nat)
  deriving DecidableEq, Repr

/-- An unused end. -/
def MEnd.reset : MEnd := ⟨0, false, 0, false, 0, 0, 0, 0, 0, 0, 0, 0, 0, false, 0, 0, 0, [], []⟩

/-- A contribution that has arrived and has not been combined (R314, R315). -/
structure Contrib where
  q : Nat
  src : Nat
  at_ : Nat
  data : List PNt
  deriving DecidableEq, Repr

/-- A combining queue (R312, R313): N18 or N36 elements with their poison; `added` lists the sources combined. -/
structure CombQ where
  valid : Bool
  n36 : Bool
  count : Nat
  size : Nat
  counter : Nat
  complete : Bool
  poison : Bool
  ovf : Bool
  nan : Bool
  arrived : Nat
  added : Nat
  sum : List (Nat × Bool)
  deriving DecidableEq, Repr

/-- A combining queue not in use. -/
def CombQ.reset : CombQ := ⟨false, false, 0, 0, 0, false, false, false, false, 0, 0, []⟩

/-- The receive record RX (R309). -/
structure Rx where
  valid : Bool
  poison : Bool
  endn : Nat
  tag : Nat
  seq : Nat
  len : Nat
  off : Nat
  deriving DecidableEq, Repr

/-- RX after reset. -/
def Rx.reset : Rx := ⟨false, false, 0, 0, 0, 0, 0⟩

/-- The message engine's state (R292, R309, R312, R315, R316, R318). BKIND 0 none, 1 send credit, 2 receive, 3 combining
credit; `bmask` the ends it is blocked on, and `bsince` the cycle from which it has been blocked; `combFree` the first cycle the combiner is free. -/
structure Me where
  ends : SMap MEnd
  rx : Rx
  rot : Nat
  bkind : Nat
  bend : Nat
  bmask : Nat
  bsince : Nat
  waits : List (Nat × Nat)
  comb : SMap CombQ
  staging : List Contrib
  combFree : Nat
  deriving DecidableEq, Repr

/-- The message engine after reset. -/
def Me.reset : Me := ⟨.empty, .reset, 0, 0, 0, 0, 0, [], .empty, [], 0⟩

/-- A binding of a handle to a format group (R201). -/
structure Bind where
  valid : Bool
  group : Nat
  deriving DecidableEq, Repr

/-- A group table entry (R202). -/
structure Group where
  valid : Bool
  widened : Bool
  fmt : Nat
  maxfmt : Nat
  scale : Int
  widens : Nat
  deriving DecidableEq, Repr

/-- A group not in use. -/
def Group.reset : Group := ⟨false, false, 0, 0, 0, 0⟩

/-- A pending word of a group (R203). -/
structure GPend where
  valid : Bool
  nonfin : Bool
  any : Bool
  top : Int
  low : Int
  deriving DecidableEq, Repr

/-- A cleared pending word. -/
def GPend.reset : GPend := ⟨false, false, false, 0, 0⟩

/-- The training state of a core (R201 to R203, R218). -/
structure Train where
  binds : SMap Bind
  groups : SMap Group
  pend : SMap GPend
  widenPend : Bool
  ceil : Bool
  limit : Bool
  firstGroup : Nat
  deriving DecidableEq, Repr

/-- Training state after reset. -/
def Train.reset : Train := ⟨.empty, .empty, .empty, false, false, false, 0⟩

/-- The place of an issue: its cycle, the number of the instruction, its engine, context and program counter. -/
structure Iss where
  t : Nat
  tid : Nat
  eng : Nat
  ctx : Nat
  pc : Nat
  deriving DecidableEq, Repr

/-- An operand of a stream as its issue finds it (R114 to R116): the turn-buffer half or the handle it reads, with the format and
scale, the orientation, its first vector, the first element it uses, how many it uses, the array row or column of the first, and how many
nonets of it one access carries (144, or 72 in a quadrant). -/
structure Opnd where
  turn : Option (Bool × Option TbTag)
  h : Handle
  orient : Bool
  start : Nat
  first : Nat
  n : Nat
  at_ : Nat
  span : Nat
  deriving DecidableEq, Repr

/-- A problem of a stream: its operands and the read port of each (R118, R129). -/
structure Probl where
  a : Opnd
  b : Opnd
  pa : Nat
  pb : Nat
  deriving DecidableEq, Repr

/-- A stream of the OPE as its issue fixes it (R109, R110, R112): its problems, its pairs, cycles per pair and group size, its rounding,
and the rows that make adds. -/
structure OStream where
  ps : List Probl
  k : Nat
  p : Nat
  g : Nat
  rnd : Bool
  rows : BitVec 144
  deriving DecidableEq, Repr

/-- The operation of a VE instruction that works through groups (R169). Slots are in the work's own fields. -/
inductive VOp where
  | vld (ptr : VPtr) (h : Handle)
  | vst (ptr : VPtr) (h : Handle) (hn : Nat)
  | tqrd (row ent : Nat)
  | rqrd (ent : Nat)
  | tbw (half : Bool) (row tf : Nat) (sc : Int)
  | add | sub | mul | max | min | fma | cmp (cond : Nat) | sel | mov
  | cvt (sc : Int)
  | red (rop : Nat)
  | tab (func : Nat) (der : Bool)
  | supd (e : Int) (neg : Bool)
  | cmpr
  | expd (zf : Bool)
  | stat
  deriving DecidableEq, Repr

/-- A VE instruction at work (R163, R164, R171): its operation, the configuration it latched, the rounding counter, its slots,
BSEG, its lanes, groups and latency, the formats it reads and writes, its stats buffer, and what it gathers over its groups: the active
elements with their poison, for a reduction or statistics, and for VCMPR and VEXPD how many bits it has met and whether one was poisoned. -/
structure VWork where
  op : VOp
  cfg : VCfg
  ctr : Nat
  d : Nat
  a : Nat
  b : Nat
  c : Nat
  bseg : Bool
  lanes : Nat
  groups : Nat
  lat : Nat
  src : Fmt
  out : Fmt
  sb : Option Nat
  els : List (Nat × Fl × Bool)
  met : Nat
  mp : Bool
  deriving DecidableEq, Repr

/-- What an instruction or unit does in a later cycle than its issue, or at the end of its issue cycle (R65, R67). Reads come first in a
cycle and find what stood before it: `ld` (R97), `maskWords` of OMASK (R121), `preRow` of PRELOAD (R126), `chunk` of HLOAD (R147), `pair` of
a stream (R110), `group` of the VE (R164), `move`, `gather` and `nearGet` of transfers (R104, R151, R251), `source` of a
send (R280), and `queueChunk` of a QLAND (R273).
`adds` is one cycle of a pair's adds, `terms` its checksum terms (R110, R130), `check` comparisons of a drain (R132), `nearPut` a write
request that is complete (R251), `land` the landing of a near read, `combDone` the completion of a combining queue (R316), `record` a record that has
landed whole (R304), `await` group `k` of record `tid` of core `src`, which lands at `off` and is still being read
(R304), and `back` a background write that static writes of its cycle must not
hide (R229). -/
inductive Wr where
  | sreg (d : Nat) (v : PWord)
  | scr (off : Nat) (data : List PNt)
  | elems (w h : Nat) (l : List (Nat × Nat × Bool × NumFlags))
  | ctl (off : Nat) (v : Word)
  | cache (addr : Nat) (data : List PNt)
  | cmask (addr mask value : Nat) (p : Bool)
  | tb (key : Nat) (data : List TbEl)
  | tag (half : Bool) (t : TbTag)
  | mask (m : BitVec 144)
  | row (r : Nat) (data : List Acc)
  | cols
  | adds (w : OStream) (sub : Nat) (probs : List Prob)
  | terms (probs : List Prob)
  | check (lanes : Nat) (l : List (List Acc × Chk))
  | swap (drn clr : Bool)
  | areg (n delta : Nat)
  | held (key : Nat) (data : List HeldEl)
  | vcnt (n : Nat) (p : Bool)
  | stat (sb : Nat) (elems : List (Fl × Bool))
  | sclr (sb : Nat) (base : Int)
  | handle (h : Nat) (fmt : Fmt) (scale : Int)
  | gpend (g : Nat) (s : GPend)
  | rx (r : Rx)
  | flags (f : NumFlags)
  | back (off : Nat) (data : List PNt)
  | land (addr off : Nat) (data : List PNt)
  | nearPut (addr : Nat) (data : List PNt)
  | combDone (q : Nat)
  | record (endn : Nat) (r : MsgRec)
  | ld (d off : Nat)
  | maskWords (q0 q1 : Nat)
  | preRow (h : Handle) (start m r : Nat)
  | chunk (v : Nat) (h : Handle) (eoff n soff k : Nat)
  | pair (w : OStream) (k cyc : Nat) (acc : List Prob)
  | group (w : VWork) (g : Nat)
  | move (src n dst : Nat)
  | gather (addr src n : Nat)
  | nearGet (addr n dst : Nat)
  | source (k : Nat)
  | queueChunk (q k dst : Nat)
  | await (src tid k off : Nat)
  deriving DecidableEq, Repr

/-- Something that takes effect in cycle `due`, and the instruction it belongs to; what takes effect in one cycle does so in issue
order (R66). -/
structure Pend where
  due : Nat
  by_ : Iss
  wr : Wr
  deriving DecidableEq, Repr

/-- What an instruction does in its completion cycle beside its signal. -/
inductive CompAct where
  | fill (ring : Nat)
  | tqRel
  | rqRel
  | mpopRel
  | qEmpty (q : Nat)
  | comb (q : Nat)
  deriving DecidableEq, Repr

/-- An instruction that has issued and not completed: its engine, context and program counter, its completion cycle
(`none`: not yet fixed, R68), its signal, and what it does at completion. An instruction that completes in its issue cycle is
listed only where it has a signal. -/
structure Infl where
  tid : Nat
  eng : Nat
  ctx : Nat
  pc : Nat
  due : Option Nat
  skind : Nat
  sid : Nat
  acts : List CompAct
  deriving DecidableEq, Repr

/-- The part of an engine's context that the copy of R73 holds. -/
structure CtxCopy where
  eng : Nat
  ctx : Nat
  pc : Nat
  levels : List Level
  buf : List Word
  bufBase : Nat
  skip : Nat
  ended : Bool
  begun : Nat
  deriving DecidableEq, Repr

/-- The copy of a core's control state saved at each step commit (R73, R141, R161, R195, R247, R290, R321). -/
structure CoreCopy where
  coup : Coupling
  ctxs : List CtxCopy
  sregs : SMap PWord
  loopCnt : SMap Nat
  areg : SMap Nat
  credits : SMap Credit
  descs : SMap Desc
  mask : BitVec 144
  mcfg : MCfg
  vcfg : VCfg
  ptrs : SMap VPtr
  vcnt : Nat
  vcntP : Bool
  stats : SMap Stats
  ends : SMap MEnd
  rx : Rx
  rot : Nat
  comb : SMap CombQ
  deriving DecidableEq, Repr

/-- The copy before any program has run. -/
def CoreCopy.reset : CoreCopy :=
  ⟨.reset, [], .empty, .empty, .empty, .empty, .empty, BitVec.allOnes 144, .reset, .reset, .empty, 0, false, .empty, .empty,
   .reset, 0, .empty⟩

/-- One core. `now` is its present schedule cycle (R425), counted from the start of its program (R347); what takes effect before it has
done so. `failed`: a core fault has come about in it (R525). `stepStart` is the cycle in which the present step began (R61). `nearSince` counts the near misses since the last pattern run, and
`suggested` says that they have led to a suggestion (R462). `busyTo` is the cycle after the last in which work of the step that no outside traffic times has gone on in it (R424, R428). `bgFree` is the first chip cycle in which its background slot is free (R229), `bgAt` the first of its own in which that slot is free of write-backs, `fixes` the
write-backs of corrected words that wait, as (cycle, word) (R236), and `feeder` says that its program is feeder-streamed (R88). -/
structure Core where
  now : Nat
  prog : Option Nat
  profile : Nat
  opePad : Nat
  vePad : Nat
  failed : Bool
  engs : SMap Engine
  coup : Coupling
  st : CoreStatus
  loopCnt : SMap Nat
  sregs : SMap PWord
  scr : Scratch
  handles : SMap Handle
  te : Te
  ope : Ope
  mve : Mve
  ve : Ve
  me : Me
  train : Train
  infl : List Infl
  pend : List Pend
  nextTid : Nat
  nearSince : Nat
  suggested : Bool
  stepStart : Nat
  busyTo : Nat
  bgFree : Nat
  bgAt : Nat
  fixes : List (Nat × Nat)
  feeder : Bool
  saved : CoreCopy
  deriving DecidableEq, Repr

/-- A core after reset: no program, PROFILE 0b11, every register zero (R46 to R50). -/
def Core.reset : Core :=
  ⟨0, none, 3, 0, 0, false, .empty, .reset, .reset, .empty, .empty, .reset, .empty, .reset, .reset, .reset, .reset, .reset,
   .reset, [], [], 0, 0, false, 0, 0, 0, 0, [], false, .reset⟩

end Sys2Proof.Machine
end

