-- ==== Sys2Proof/Machine/Memory.lean ====
section
/-! DEFINITION. The address map (R221, R223), near and far memory with block poison, check codes and mirrored regions
(R248, R249, R259 to R262), and the merge of nonets into words (R237, R249). -/

namespace Sys2Proof.Machine

/-! ### Address map -/

/-- Size of a core's scratchpad window (R221). -/
def scratchSize : Nat := 0x400000
/-- First address of near memory (R221). -/
def nearBase : Nat := 0x04000000000
/-- Size of one stack (R221). -/
def stackSize : Nat := 0x1000000000
/-- First address of usable far memory (R221). -/
def farBase : Nat := 0x10000000000
/-- End of usable far memory (R221). -/
def farEnd : Nat := 0x26800000000
/-- Address of descriptor 0 of the context table, which ends with near memory (R322). -/
def tableBase : Nat := 0x9FFC000000
/-- First address of the core control blocks (R44). -/
def ctlBase : Nat := 0x00040000000
/-- First address of the chip session windows (R221). -/
def sessionBase : Nat := 0x00050000000
/-- End of the chip session windows (R221). -/
def sessionEnd : Nat := 0x00080000000

/-- Where a local address lies (R221). -/
inductive Region where
  | scratch (core off : Nat)
  | ctl (core off : Nat)
  | session (off : Nat)
  | near (stack : Nat)
  | far
  | unmapped
  deriving DecidableEq, Repr

/-- The region of a local address; `absent` lists the numbers of the disabled column's cores (R10, R222). -/
def region (absent : List Nat) (a : Nat) : Region :=
  if a < 0x24000000 then
    let c := a / scratchSize
    if absent.contains c then .unmapped else .scratch c (a % scratchSize)
  else if a < ctlBase then .unmapped
  else if a < 0x40900000 then
    let c := (a - ctlBase) / 0x10000
    if absent.contains c then .unmapped else .ctl c ((a - ctlBase) % 0x10000)
  else if a < sessionBase then .unmapped
  else if a < sessionEnd then .session (a - sessionBase)
  else if a < nearBase then .unmapped
  else if a < nearBase + 6 * stackSize then .near ((a - nearBase) / stackSize)
  else if a < farBase then .unmapped
  else if a < farEnd then .far
  else .unmapped

/-- The stack over a core (R11). -/
def stackOf (core : Nat) : Nat := 2 * (core / 12 / 4) + core % 12 / 6

/-- The chip field of a global address (R223). -/
def chipOf (a : Nat) : Nat := a / 2 ^ 44 % 2 ^ 16

/-- The local part of a global address (R223). -/
def localOf (a : Nat) : Nat := a % 2 ^ 44

/-! ### Nonets in words -/

/-- Split a run of nonets at address `a` into its pieces: word index, first nonet, nonets. -/
def pieces (a : Nat) (data : List PNt) : List (Nat × Nat × List PNt) :=
  let k := a % 8
  let rest := (chunks 8 (data.drop (8 - k))).zipIdx.map fun x => (a / 8 + 1 + x.2, 0, x.1)
  if data.isEmpty then [] else (a / 8, k, data.take (8 - k)) :: rest

/-- Put nonets into a word from nonet `k` (R237). -/
def mergeWord (w : Word) (k : Nat) (p : List PNt) : Word :=
  let old := toNonets 8 w.toNat
  BitVec.ofNat 72 (ofNonets (old.take k ++ p.map (·.v) ++ old.drop (k + p.length)))

/-- Any nonet of the run is poisoned. -/
def anyPoison (p : List PNt) : Bool := p.any (·.p)

/-- The nonets of a word, each with the word's poison (R106). -/
def wordNts (w : Word) (p : Bool) : List PNt := (toNonets 8 w.toNat).map fun v => ⟨v, p⟩

/-- The value of a run of nonets (R14). -/
def ntVal (l : List PNt) : Nat := ofNonets (l.map (·.v))

/-- The nonets of a value, with one poison mark. -/
def ntsOf (n : Nat) (v : Nat) (p : Bool) : List PNt := (toNonets n v).map fun x => ⟨x, p⟩

/-- Clean nonets. -/
def cleanNts (l : List Nonet) : List PNt := l.map fun v => ⟨v, false⟩

/-! ### Near and far memory -/

/-- A mirrored region: primary, mirror, size and state, 0 Off 1 Active 2 Split 3 Syncing (R261). -/
structure Mirror where
  primary : Nat
  mirror : Nat
  size : Nat
  state : Nat
  deriving DecidableEq, Repr

/-- Near and far memory. Words are keyed by local address ÷ 8 and read zero when nothing is listed (R485); `marks` lists
the poisoned blocks by local address ÷ 64 (R249). -/
structure Mem where
  words : SMap Word
  marks : SMap Bool
  mirrors : List Mirror
  deriving DecidableEq, Repr

/-- Memory with nothing listed. -/
def Mem.empty : Mem := ⟨.empty, .empty, []⟩

/-- The canonical form of the memory. -/
def Mem.wf (m : Mem) : Bool := m.words.wf 0 && m.marks.wf false

/-- The mirrored region in use whose primary copy holds an address (R259). -/
def Mem.mirrorOf (m : Mem) (a : Nat) : Option Mirror :=
  m.mirrors.find? fun r => r.state != 0 && r.primary ≤ a && a < r.primary + r.size

/-- The address lies in the mirror copy of a region in use: it then has no address (R259). -/
def Mem.inMirror (m : Mem) (a : Nat) : Bool :=
  m.mirrors.any fun r => r.state != 0 && r.mirror ≤ a && a < r.mirror + r.size

/-- A range touches the mirror copy of a region in use. -/
def Mem.touchesMirror (m : Mem) (a n : Nat) : Bool :=
  m.mirrors.any fun r => r.state != 0 && decide (r.mirror < a + n) && decide (a < r.mirror + r.size)

/-- The block of an address reads as poisoned: it is marked, or its region is Split (R249, R262). -/
def Mem.poisoned (m : Mem) (a : Nat) : Bool :=
  m.marks.get false (a / 64) || (match m.mirrorOf a with | some r => r.state == 2 | none => false)

/-- Read one nonet. -/
def Mem.readNt (m : Mem) (a : Nat) : PNt := ⟨nonetOf (m.words.get 0 (a / 8)) (a % 8), m.poisoned a⟩

/-- Read `n` nonets from `a`. -/
def Mem.read (m : Mem) (a : Nat) : Nat → List PNt
  | 0 => []
  | n + 1 => m.readNt a :: m.read (a + 1) n

/-- Read `n` words from `a`, a multiple of 8. -/
def Mem.readWords (m : Mem) (a n : Nat) : List Word := m.words.readList 0 (a / 8) n

/-- The blocks a range touches. -/
def blocksOf (a n : Nat) : List Nat :=
  if n = 0 then [] else (List.range ((a + n - 1) / 64 - a / 64 + 1)).map (a / 64 + ·)

/-- The mark of a block after a write of `data` at `a`: a write of the whole block decides it, a part keeps an old mark
(R249). -/
def Mem.markAfter (m : Mem) (a : Nat) (data : List PNt) (b : Nat) : Bool :=
  let lo := max a (64 * b)
  let hi := min (a + data.length) (64 * b + 64)
  let p := anyPoison ((data.drop (lo - a)).take (hi - lo))
  if lo = 64 * b && hi = 64 * b + 64 then p else p || m.marks.get false b

/-- Write one copy (R249). -/
def Mem.writeCopy (m : Mem) (a : Nat) (data : List PNt) : Mem :=
  { m with
    words := (pieces a data).foldl (fun ws p => ws.write 0 p.1 (mergeWord (ws.get 0 p.1) p.2.1 p.2.2)) m.words
    marks := (blocksOf a data.length).foldl (fun ms b => ms.write false b (m.markAfter a data b)) m.marks }

/-- The part of a write that falls into the primary copy of a region goes to its mirror copy too (R260). -/
def Mem.writeMirror (a : Nat) (data : List PNt) (m : Mem) (r : Mirror) : Mem :=
  let lo := max a r.primary
  let hi := min (a + data.length) (r.primary + r.size)
  if r.state != 0 && decide (lo < hi) then m.writeCopy (r.mirror + (lo - r.primary)) ((data.drop (lo - a)).take (hi - lo)) else m

/-- Write nonets: what falls into a mirrored region goes to both copies (R260). -/
def Mem.write (m : Mem) (a : Nat) (data : List PNt) : Mem :=
  m.mirrors.foldl (Mem.writeMirror a data) (m.writeCopy a data)

/-- Write words from `a`, a multiple of 8, without poison. -/
def Mem.writeWords (m : Mem) (a : Nat) (ws : List Word) : Mem :=
  m.write a (ws.flatMap fun w => wordNts w false)

/-- Poison a block, in both copies of a mirrored region (R255, R257, R260). -/
def Mem.poison (m : Mem) (a : Nat) : Mem :=
  let m1 := { m with marks := m.marks.write false (a / 64) true }
  match m.mirrorOf a with
  | some r => { m1 with marks := m1.marks.write false ((r.mirror + (a - r.primary)) / 64) true }
  | none => m1

/-- A block's old mark goes, in both copies of a mirrored region. -/
def Mem.unmark (m : Mem) (a : Nat) : Mem :=
  let m1 := { m with marks := m.marks.write false (a / 64) false }
  match m.mirrorOf a with
  | some r => { m1 with marks := m1.marks.write false ((r.mirror + (a - r.primary)) / 64) false }
  | none => m1

/-- A request of a COPY is written: a COPY writes whole blocks (R103), so a block that the request begins loses its old mark, though another request writes
the rest of it (R249, R251). -/
def Mem.writePart (m : Mem) (a : Nat) (data : List PNt) : Mem :=
  ((blocksOf a data.length).foldl (fun m b => if a ≤ 64 * b then m.unmark (64 * b) else m) m).write a data

/-- Copy a block from one address to another, mark included. -/
def Mem.copyBlock (m : Mem) (src dst : Nat) : Mem :=
  let p := m.marks.get false (src / 64)
  m.writeCopy (dst / 64 * 64) ((m.words.readList 0 (src / 64 * 8) 8).flatMap fun w => wordNts w p)

/-- Copy a range block by block (R261). -/
def Mem.copyRange (m : Mem) (src dst : Nat) : Nat → Mem
  | 0 => m
  | n + 1 => (m.copyBlock (src + 64 * n) (dst + 64 * n)).copyRange src dst n

/-! ### The block check code (R248) -/

/-- One bit of the code's shift register: generator x^18 + 0x2_6DCD. -/
def crcStep (r : Nat) (b : Bool) : Nat :=
  let t := nbit r 17 != b
  let r := (r * 2) % 2 ^ 18
  if t then r ^^^ 0x26DCD else r

/-- Feed bits [k−1:0] of a number, the highest first. -/
def crcFeed (v : Nat) : Nat → Nat → Nat
  | 0, r => r
  | k + 1, r => crcFeed v k (crcStep r (nbit v k))

/-- The block's 576 bits as one number: bit `b` is bit b mod 9 of nonet b ÷ 9. -/
def blockVal (ws : List Word) : Nat := ws.foldr (fun w n => w.toNat + 2 ^ 72 * n) 0

/-- The check code of a block at a local address (R248). -/
def blockCode (a : Nat) (ws : List Word) : Nat :=
  crcFeed (nbits a 43 6) 38 (crcFeed (blockVal ws) 576 0x3FFFF)

/-- The code stored for a block: exclusive-ored with 0x1_5A5A when it is poisoned (R249). -/
def Mem.storedCode (m : Mem) (a : Nat) : Nat :=
  let c := blockCode a (m.words.readList 0 (a / 64 * 8) 8)
  if m.marks.get false (a / 64) then c ^^^ 0x15A5A else c

/-- The check word of far group `g`: the 16 codes of its blocks, block 0 in bits [17:0] (R256). -/
def Mem.checkWord (m : Mem) (g : Nat) : Nat :=
  (List.range 16).foldr (fun k n => m.storedCode (farBase + 1024 * g + 64 * k) + 2 ^ 18 * n) 0

/-- The channel of usable far group `g` (R256). -/
def farChannel (g : Nat) : Nat := g % 48

end Sys2Proof.Machine
end

