-- ==== Sys2Proof/Machine/Env.lean ====
section
/-! DEFINITION. What a core sees of the chip while it works (read only), and the effects its work has beyond the core:
program errors, remount triggers, events and counts. -/

namespace Sys2Proof.Machine

/-- The remount triggers (R442), in the order of its table. -/
inductive Trig where
  | opeMismatch | mveMismatch | uncorrectable | residue | flagTimeout | hang | widening
  deriving DecidableEq, Repr

/-- The trigger counts against the budget (R442). -/
def Trig.counts : Trig → Bool
  | .widening => false
  | _ => true

/-- The event code of a trigger (R466). -/
def Trig.code : Trig → Nat
  | .opeMismatch => 0x0301 | .mveMismatch => 0x0302 | .uncorrectable => 0x0303 | .residue => 0x0304
  | .flagTimeout => 0x0305 | .hang => 0x0306 | .widening => 0x0307

/-- An effect of a core's work on the chip: a program error, a remount trigger, an event record of another tier (`word` for a word at an offset of the core's scratchpad, whose global address DETAIL holds), a count of
0x7020 (R469), a training overflow of a store into a group (R213 to R216), the credit words a release sends back to its
peer end from cycle `due` on (R305), the credits a combining queue sends back to the sources of
its round, as a mask (R317), and a payload that has entered its light-path slot (R285). -/
inductive Eff where
  | err (e : PErr) (eng ctx pc detail : Nat)
  | trig (t : Trig) (eng ctx pc detail : Nat)
  | event (code eng ctx pc detail : Nat)
  | word (code eng ctx pc off : Nat)
  | count (sub n : Nat)
  | overflow (group eng ctx pc : Nat)
  | credit (chip core endn words due : Nat)
  | combCredit (queue sources due : Nat)
  | light (dst at_ : Nat) (data : List PNt)
  deriving DecidableEq, Repr

/-- Rank of a program error in the table of R419: the earlier row is raised (R578). -/
def errRank : PErr → Nat
  | .illegalOpcode => 0 | .illegalEncoding => 1 | .illegalLoop => 2
  | .illegalTile => 3 | .illegalMve => 4 | .illegalVe => 5 | .illegalSize => 6
  | .illegalCoupling => 7
  | .scratchConflict => 8 | .protectedWrite => 9
  | .ringOverflow => 10 | .ringUnderflow => 11
  | .opeConflict => 12 | .tqOverflow => 13 | .tqUnderflow => 14
  | .rqOverflow => 15 | .rqUnderflow => 16
  | .queueBusy => 17 | .queueUnderflow => 18 | .lightOverflow => 19
  | .illegalChannel => 20
  | .addressError => 21
  | .controlWindow => 22 | .poisonedControl => 23
  | .readBeforeWrite => 24
  | .credit => 25
  | .channelUnderflow => 26 | .combineUnderflow => 27
  | .channelDeadlock => 28
  | .scheduleSlip => 29

/-- The event code of a program error (R466). -/
def errCode : PErr → Nat
  | .illegalOpcode => 0x0501 | .illegalEncoding => 0x0502 | .illegalLoop => 0x0503
  | .addressError => 0x0504 | .illegalSize => 0x0505 | .controlWindow => 0x0506 | .poisonedControl => 0x0507
  | .illegalCoupling => 0x0508 | .ringOverflow => 0x0509 | .ringUnderflow => 0x050A
  | .illegalTile => 0x050B | .opeConflict => 0x050C | .tqOverflow => 0x050D | .tqUnderflow => 0x050E
  | .illegalMve => 0x050F | .rqOverflow => 0x0510 | .rqUnderflow => 0x0511 | .illegalVe => 0x0512
  | .scratchConflict => 0x0513 | .protectedWrite => 0x0514 | .readBeforeWrite => 0x0515 | .credit => 0x0516
  | .queueBusy => 0x0517 | .queueUnderflow => 0x0518 | .lightOverflow => 0x0519
  | .illegalChannel => 0x051A | .channelUnderflow => 0x051B | .combineUnderflow => 0x051C
  | .channelDeadlock => 0x051D | .scheduleSlip => 0x051E

/-- The error that is raised when several checks of one stage fail (R578). -/
def firstErr : List PErr → Option PErr
  | [] => none
  | e :: es =>
    match firstErr es with
    | some f => if errRank f < errRank e then some f else some e
    | none => some e

/-- What a core sees of the chip. `chip` is chip_id, 0xFFFF until it is set (R223); `dims` and `sizes` lay out the system
(R364); `marks` are the plan's boundary marks of this core, as (engine, context, pc), `digest` the image's, and `stepNo` the present step's number
from the program's first (R437); `seals` the sealed ranges as
(base, size) (R92); `frame` and `starts` the start positions of its static flows, as (flow, position), where flow n is end n and flow
32 + m multicast set m (R349). The settings are those of 0x4110, 0x4120, 0x6020 and 0x6030. `nearTo` is the earliest cycle in which another core
of the program under the same stack stands, `widenUp` whether the step has had its widening remounts (R215), and `nearGets` the earliest near read such a core is to make before this one writes. -/
structure Env where
  core : Nat
  chip : Nat
  absent : List Nat
  dims : Nat
  sizes : List Nat
  free : Bool
  step : Nat
  key : RngKey
  train : Bool
  policy : Nat
  profile : Nat
  slipLimit : Nat
  waitTimeout : Nat
  switchAfter : Nat
  headroom : Nat
  lossExp : Nat
  margin : Nat
  suggest : Nat
  marks : List (Nat × Nat × Nat)
  digest : Nat
  stepNo : Nat
  seals : List (Nat × Nat)
  pcores : List Nat
  frame : Nat
  starts : List (Nat × Nat)
  widenUp : Bool
  nearTo : Option Nat
  nearGets : Option Nat
  deriving DecidableEq, Repr

/-- The instruction is the first of a step in its stream (R437). -/
def Env.marked (env : Env) (eng ctx pc : Nat) : Bool := env.marks.contains (eng, ctx, pc)

/-- The step whose first instruction is the next marked one of a stream that has `begun` (R437). -/
def Env.markStep (env : Env) (eng ctx begun : Nat) : Nat := begun + Config.planSkip env.digest env.core eng ctx begun

/-- A core at work: the core, near and far memory, and the effects so far, in order, each with the cycle of the core in which it came
about. `late` says that time stopped at a near access or a landing for which another core has to come on first (R12, R304). -/
structure Cx where
  c : Core
  mem : Mem
  effs : List (Nat × Eff)
  late : Bool
  deriving DecidableEq, Repr

/-- A core that has done nothing yet. -/
def Cx.of (c : Core) (m : Mem) : Cx := ⟨c, m, [], false⟩

/-- Add effects. -/
def Cx.emit (x : Cx) (l : List Eff) : Cx := { x with effs := x.effs ++ l.map fun e => (x.c.now, e) }

/-- The work has raised a program error. -/
def Cx.failed (x : Cx) : Bool := x.effs.any fun e => match e.2 with | .err .. => true | _ => false

end Sys2Proof.Machine
end

