-- ==== Sys2Proof/Machine/Flags.lean ====
section
/-! DEFINITION. Coupling state: waits, signals, ring fills and their order in a cycle (R52 to R59), slips (R60, R61), and
the sticky bits of status words (R8, R39). -/

namespace Sys2Proof.Machine

/-! ### Coupling state -/

/-- Ring `r`. -/
def Coupling.ring (c : Coupling) (r : Nat) : Ring := c.rings.get .reset r

/-- Set ring `r`. -/
def Coupling.setRing (c : Coupling) (r : Nat) (x : Ring) : Coupling := { c with rings := c.rings.write .reset r x }

/-- Flag `n` is set. -/
def Coupling.flag (c : Coupling) (n : Nat) : Bool := c.flags.toNat / 2 ^ n % 2 == 1

/-- Set or clear flag `n` (R47). -/
def Coupling.setFlag (c : Coupling) (n : Nat) (b : Bool) : Coupling :=
  { c with flags := BitVec.ofNat 64 (setBit c.flags.toNat n b) }

/-- A wait is satisfied (R52). Kind 0 is no wait. -/
def Coupling.waitOk (c : Coupling) (eng kind id : Nat) : Bool :=
  match kind with
  | 0 => true
  | 1 => c.flag id
  | 2 => decide (c.tgt.get 0 id ≤ c.cnt.get 0 id)
  | _ =>
    let r := c.ring id
    if eng = r.prod then decide (r.full ≤ r.last) else decide (1 ≤ r.full)

/-- A wait is legal (R54). -/
def Coupling.waitLegal (c : Coupling) (eng kind id : Nat) : Bool :=
  match kind with
  | 0 | 1 => true
  | 2 => decide (id ≤ 15)
  | _ => decide (id ≤ 31) && (c.ring id).en && (eng == (c.ring id).prod || eng == (c.ring id).cons)

/-- A signal is legal (R54, R56). -/
def Coupling.sigLegal (c : Coupling) (eng kind id : Nat) : Bool :=
  match kind with
  | 0 | 1 => true
  | 2 => decide (id ≤ 15)
  | _ => decide (id ≤ 31) && (c.ring id).en && eng == (c.ring id).cons

/-- The handle bound to a ring (R264). -/
def ringHandle (hs : SMap Handle) (r : Nat) : Option Handle :=
  (hs.entries.find? fun e => e.2.rvalid && e.2.ring == r).map (·.2)

/-- A ring fill is legal: EN is set and a handle is bound (R54, R56, R267). -/
def Core.fillLegal (c : Core) (r : Nat) : Bool := (c.coup.ring r).en && (ringHandle c.handles r).isSome

/-- Slot size of a ring (R264). -/
def Core.slotSize (c : Core) (r : Nat) : Nat :=
  match ringHandle c.handles r with
  | some h => h.size / ((c.coup.ring r).last + 1)
  | none => 0

/-- Release a ring slot (R55). -/
def Ring.release (r : Ring) : Ring := { r with full := r.full - 1, head := (r.head + 1) % (r.last + 1) }

/-- Fill a ring slot (R56). -/
def Ring.fill (r : Ring) : Ring := { r with full := r.full + 1, tail := (r.tail + 1) % (r.last + 1) }

/-- Add 1 to a counter; from 2^36 − 1 it wraps to 0 and sets CNT_WRAP (R55, R59). -/
def Core.bump (c : Core) (n : Nat) : Core :=
  let v := c.coup.cnt.get 0 n
  let wrap := v + 1 == 2 ^ 36
  { c with
    coup := { c.coup with cnt := c.coup.cnt.write 0 n (if wrap then 0 else v + 1) }
    st := { c.st with cntWrap := c.st.cntWrap || wrap } }

/-- A set-flag signal; `before` is the flags word as no signal of the cycle has touched it (R58). -/
def Core.setSignal (before : BitVec 64) (i : Infl) (c : Core) : Core :=
  let overrun := before.toNat / 2 ^ i.sid % 2 == 1
  let st := if overrun then
      { c.st with
        sigOvr := true
        sigRec := if c.st.sigRec.valid then c.st.sigRec else ⟨true, i.eng, i.sid, i.pc⟩ }
    else c.st
  { c with coup := c.coup.setFlag i.sid true, st := st }

/-- The release of one completing instruction (R56). -/
def Cx.release (x : Cx) (i : Infl) : Cx :=
  let r := x.c.coup.ring i.sid
  if r.full = 0 then x.emit [.err .ringUnderflow i.eng i.ctx i.pc i.sid]
  else { x with c := { x.c with coup := x.c.coup.setRing i.sid r.release } }

/-- The fill of ring `r` by one completing instruction (R56, R267). -/
def Cx.fill (x : Cx) (i : Infl) (r : Nat) : Cx :=
  let g := x.c.coup.ring r
  let p := x.c.coup.pos.get .reset r
  let done (co : Coupling) : Cx :=
    { x with c := { x.c with coup := { co with pos := co.pos.write .reset r { p with inflight := p.inflight - 1 } } } }
  if g.full = g.last + 1 then (done x.c.coup).emit [.err .ringOverflow i.eng i.ctx i.pc r] else done (x.c.coup.setRing r g.fill)

/-- The rings a completing instruction fills. -/
def Infl.fills (i : Infl) : List Nat := i.acts.filterMap fun a => match a with | .fill r => some r | _ => none

/-- The coupling changes of the instructions that complete in one cycle, in the order of R57: releases, fills,
increments and sets. Of two overruns in one cycle the record takes the one whose
instruction was taken from its queue first (DESIGN CHOICE, log 123). -/
def Cx.signals (x : Cx) (l : List Infl) : Cx :=
  let x := (l.filter fun (i : Infl) => i.skind == 3).foldl Cx.release x
  let x := l.foldl (fun x i => i.fills.foldl (fun x r => x.fill i r) x) x
  let x := { x with c := (l.filter fun (i : Infl) => i.skind == 2).foldl (fun (c : Core) (i : Infl) => c.bump i.sid) x.c }
  let before := x.c.coup.flags
  { x with c := (l.filter fun (i : Infl) => i.skind == 1).foldl (fun (c : Core) (i : Infl) => c.setSignal before i) x.c }

/-! ### Slips -/

/-- A scheduled wait found unsatisfied records a slip (R60, R61). DESIGN CHOICE: of two first slips in one cycle the record takes the one whose
command comes first (log 134), and the slip count goes on from 0 past 2^36 − 1 (log 135). -/
def CoreStatus.recordSlip (s : CoreStatus) (eng kind id pc : Nat) : CoreStatus :=
  { s with
    slip := true
    slipCount := (s.slipCount + 1) % 2 ^ 36
    firstSlip := if s.firstSlip.valid then s.firstSlip else ⟨true, eng, kind, id, pc⟩ }

/-- Add held cycles to the step slip cycles (R60). -/
def CoreStatus.addSlip (s : CoreStatus) (n : Nat) : CoreStatus := { s with stepSlip := (s.stepSlip + n) % 2 ^ 36 }

/-! ### Sticky bits -/

/-- Writing `w` to sticky bits clears the bits written as 1 (R8). -/
def w1c (old : Bool) (w : Word) (i : Nat) : Bool := old && !(bit w i)

/-- A write to a numeric status word (R39). -/
def numW1c (f : NumFlags) (w : Word) : NumFlags := f &&& ~~~(BitVec.ofNat 5 w.toNat)

end Sys2Proof.Machine
end

