-- ==== Sys2Proof/Machine/Scratchpad.lean ====
section
/-! DEFINITION. The scratchpad of a core: banks and ways, checked reads, merging writes, protection, and the static access
conflicts of a cycle (R224 to R229, R235 to R242). -/

namespace Sys2Proof.Machine

/-! ### Geometry -/

/-- The bank of a core-relative offset (R224). -/
def bankOf (off : Nat) : Nat := off / 0x40000

/-- The bank of a word index (R224). -/
def bankOfWord (q : Nat) : Nat := q / 32768

/-- The way of a word index (R224). -/
def wayOf (q : Nat) : Nat := q % 144

/-- Word indices of the range [off, off + n) (R224). -/
def wordsOf (off n : Nat) : List Nat :=
  if n = 0 then [] else (List.range ((off + n - 1) / 8 - off / 8 + 1)).map (off / 8 + ·)

/-- Remove repeats, keeping the first of each. -/
def dedup (l : List Nat) : List Nat := l.foldr (fun x acc => x :: acc.filter (· != x)) []

/-- One access needs two words in one way of a bank (R225). -/
def wayConflict (ws : List Nat) : Bool :=
  !distinct ((dedup ws).map fun q => bankOfWord q * 144 + wayOf q)

/-- The banks an access touches (R225). -/
def banksOfWords (ws : List Nat) : List Nat := dedup (ws.map bankOfWord)

/-- Bank `b` answers accesses: it is on and awake (R241). -/
def Scratch.bankOn (s : Scratch) (b : Nat) : Bool := nbit s.banksOn b

/-- Every bank of the words answers accesses. -/
def Scratch.wordsOn (s : Scratch) (ws : List Nat) : Bool := ws.all fun q => q < 524288 && s.bankOn (bankOfWord q)

/-! ### Reads and writes of a view -/

/-- A word. -/
def Scratch.cell (s : Scratch) (q : Nat) : SCell := s.cells.get .blank q

/-- One nonet, zero when its word is unwritten (R238). -/
def Scratch.nt (s : Scratch) (off : Nat) : PNt :=
  let c := s.cell (off / 8)
  ⟨nonetOf c.v (off % 8), c.p⟩

/-- `n` nonets from `off`. -/
def Scratch.nts (s : Scratch) (off : Nat) : Nat → List PNt
  | 0 => []
  | n + 1 => s.nt off :: s.nts (off + 1) n

/-- An uncorrectable word: poisoned in place, counted, UE set (R236, R237). -/
def Scratch.uncorrectable (s : Scratch) (q : Nat) : Scratch :=
  { s with
    cells := s.cells.write .blank q { s.cell q with p := true }
    upset := s.upset.write 0 q 0
    ue := true
    uncorrected := (s.uncorrected + 1) % 2 ^ 36 }

/-- A corrected word (R236). -/
def Scratch.correct (s : Scratch) (q : Nat) : Scratch :=
  { s with upset := s.upset.write 0 q 0, corrected := (s.corrected + 1) % 2 ^ 36 }

/-- Check one word that a read or a merge touches (R236, R237): the scratchpad, and whether the word was corrected (1) or
uncorrectable (2). -/
def Scratch.check (s : Scratch) (q : Nat) : Scratch × Nat :=
  match s.upset.get 0 q with
  | 0 => (s, 0)
  | 1 => (s.correct q, 1)
  | _ => (s.uncorrectable q, 2)

/-- Check a list of words: the scratchpad, the words corrected and the words found uncorrectable. -/
def Scratch.checkAll : List Nat → Scratch → Scratch × List Nat × List Nat
  | [], s => (s, [], [])
  | q :: qs, s =>
    let (s1, k) := s.check q
    let (s2, a, b) := checkAll qs s1
    (s2, if k = 1 then q :: a else a, if k = 2 then q :: b else b)

/-- Write one piece of a run of nonets (R237). -/
def Scratch.writePiece (s : Scratch) (p : Nat × Nat × List PNt) : Scratch :=
  let q := p.1
  if p.2.2.length = 8 then
    { s with
      cells := s.cells.write .blank q ⟨mergeWord 0 0 p.2.2, anyPoison p.2.2, true⟩
      upset := s.upset.write 0 q 0 }
  else
    let s := (s.check q).1
    let o := s.cell q
    { s with cells := s.cells.write .blank q ⟨mergeWord o.v p.2.1 p.2.2, o.p || anyPoison p.2.2, true⟩ }

/-- Write a run of nonets from `off` (R237). -/
def Scratch.writeNts (s : Scratch) (off : Nat) (data : List PNt) : Scratch :=
  (pieces off data).foldl Scratch.writePiece s

/-- The first of the words that no write has reached (R238). -/
def Scratch.firstUnwritten (s : Scratch) (ws : List Nat) : Option Nat := ws.find? fun q => !(s.cell q).wr

/-! ### Protection -/

/-- A handle is protected in a step (R232, R235). -/
def Handle.protectedIn (h : Handle) (step : Nat) : Bool :=
  h.valid && (match h.prot with | 0 => false | 1 => true | 2 => step % 2 == 0 | _ => step % 2 == 1)

/-- The word `q` lies in a handle's range. -/
def Handle.covers (h : Handle) (q : Nat) : Bool := decide (h.base < 8 * q + 8) && decide (8 * q < h.base + h.size)

/-- A word is protected in a step (R235). -/
def Core.wordProtected (c : Core) (step q : Nat) : Bool :=
  c.handles.entries.any fun e => e.2.protectedIn step && e.2.covers q

/-- Any word of a range is protected. -/
def Core.rangeProtected (c : Core) (step off n : Nat) : Bool := (wordsOf off n).any (c.wordProtected step)

/-! ### Static accesses and conflicts -/

/-- A static access of one cycle (R225, R226): the read ports that carry it together, none for a write, and its words. -/
structure Access where
  ports : List Nat
  words : List Nat
  deriving DecidableEq, Repr

/-- Two accesses of one cycle conflict: they share a port, or a bank for reading or for writing (R228). -/
def Access.conflicts (a b : Access) : Bool :=
  a.ports.any (b.ports.contains ·) ||
    (a.ports.isEmpty == b.ports.isEmpty && (banksOfWords a.words).any ((banksOfWords b.words).contains ·))

/-- The accesses of one instruction conflict with one another, or one of them needs two words of one way (R225, R228). -/
def selfConflict : List Access → Bool
  | [] => false
  | a :: as => wayConflict a.words || as.any a.conflicts || selfConflict as

/-- Accesses of two instructions conflict. -/
def meetsAny (l m : List Access) : Bool := l.any fun a => m.any a.conflicts

/-- Cut a run of nonets into accesses of `w` nonets: the words of access `k`. -/
def runWords (off n w k : Nat) : List Nat := wordsOf (off + w * k) (min w (n - w * k))

/-! ### Static reads and writes in their cycle -/

/-- The write-backs of corrected words that have had their slot are done (R229, R236). -/
def Core.mend (c : Core) (t : Nat) : Core :=
  if c.fixes.isEmpty then c
  else
    let done := c.fixes.filter fun f => decide (f.1 < t)
    { c with
      scr := { c.scr with upset := done.foldl (fun m f => if m.get 0 f.2 = 1 then m.erase f.2 else m) c.scr.upset }
      fixes := c.fixes.filter fun f => decide (t ≤ f.1) }

/-- Corrected words are to be written back through the background slot (R229, R236): until then they stand as they are. -/
def Core.writeBack (c : Core) (l : List Nat) : Core :=
  l.foldl (fun c q =>
    let t := max (c.now + 1) c.bgAt
    { c with bgAt := t + 4, fixes := c.fixes ++ [(t, q)], scr := { c.scr with upset := c.scr.upset.put q 1 } }) c

/-- The checks and marks of a static read in its cycle: touched words are checked (R236), and a consumed word that no write has reached
sets RBW and raises read-before-write (R238). -/
def Core.staticRead (c : Core) (i : Iss) (touched used : List Nat) : Core × List Eff :=
  let c := c.mend c.now
  let (s, fixed, bad) := c.scr.checkAll (if c.scr.upset.entries.isEmpty then [] else dedup touched)
  let c := ({ c with scr := s } : Core).writeBack fixed
  let e1 := fixed.map (fun q => Eff.word 0x0104 i.eng i.ctx i.pc (8 * q)) ++
    (if bad.isEmpty then [] else [.count 6 bad.length, .trig .uncorrectable i.eng i.ctx i.pc (8 * bad.headD 0)])
  match c.scr.firstUnwritten used with
  | none => (c, e1)
  | some q =>
    ({ c with scr := { c.scr with rbw := true, rbwAddr := if c.scr.rbw then c.scr.rbwAddr else 8 * q } },
     e1 ++ [.err .readBeforeWrite i.eng i.ctx i.pc (8 * q)])

/-- What the check of words meets in a write that covers them in part or in a background read (R236, R237, R465): it is counted and logged for an
instruction, without a trigger. -/
def wordEffs (i : Iss) (fixed bad : List Nat) : List Eff :=
  fixed.map (fun q => Eff.word 0x0104 i.eng i.ctx i.pc (8 * q)) ++
    bad.flatMap fun q => [.word 0x0201 i.eng i.ctx i.pc (8 * q), .count 6 1]

/-- A run of nonets is written (R229, R237): words it covers in part are read and checked. -/
def Core.putNts (c : Core) (i : Iss) (off : Nat) (data : List PNt) : Core × List Eff :=
  let c := c.mend c.now
  let part := (pieces off data).filterMap fun p => if p.2.2.length = 8 then none else some p.1
  let fixed := part.filter fun q => c.scr.upset.get 0 q == 1
  let bad := part.filter fun q => decide (2 ≤ c.scr.upset.get 0 q)
  ({ c with scr := c.scr.writeNts off data }, wordEffs i fixed bad)

/-- Something that instruction `i` does in cycle `due`. -/
def Core.pendWr (c : Core) (i : Iss) (due : Nat) (w : Wr) : Core := { c with pend := c.pend ++ [⟨due, i, w⟩] }

/-- Several of them. -/
def Core.pendAll (c : Core) (l : List Pend) : Core := { c with pend := c.pend ++ l }

/-! ### Background accesses (R229) -/

/-- The banks of the words take background accesses: they are on, and not Draining (R241, R242). -/
def Scratch.bgOn (s : Scratch) (ws : List Nat) : Bool :=
  s.wordsOn ws && (banksOfWords ws).all fun b => !(nbit s.banksDraining b)

/-- No instruction: what a record of a background access names (R465). -/
def Core.noIss (c : Core) : Iss := ⟨c.now, 0, 0, 0, 0⟩

/-- A background read: unwritten words read zero and raise nothing; an uncorrectable word is poisoned in place, with no
trigger (R236, R238). The write-back of a corrected word takes a slot of its own (R229); DESIGN CHOICE (log 124): the word is corrected at once. -/
def Core.bgRead (c : Core) (off n : Nat) : Core × List PNt × List Eff :=
  let (s, fixed, bad) := c.scr.checkAll (wordsOf off n)
  ({ c with scr := s, bgFree := c.bgFree + 4 * fixed.length }, s.nts off n, wordEffs c.noIss fixed bad)

/-- A static write is to land in the present cycle. -/
def Core.landsNow (c : Core) : Bool :=
  c.pend.any fun p => p.due == c.now && (match p.wr with | .scr .. => true | .elems .. => true | .land .. => true | _ => false)

/-- A background write (R229, R237). Where static writes land in the same cycle its value is the one kept: it is written again after
them. -/
def Core.bgWrite (c : Core) (off : Nat) (data : List PNt) : Core × List Eff :=
  let r := c.putNts c.noIss off data
  (if c.landsNow then r.1.pendWr ⟨c.now, c.nextTid, 6, 0, 0⟩ c.now (.back off data) else r.1, r.2)

/-- The program error that a write of a range would raise where it is made by the core's own program (R235, R241, R282). -/
def Core.writeRefused (c : Core) (step off n : Nat) : Option PErr :=
  if scratchSize < off + n || !(c.scr.wordsOn (wordsOf off n)) then some .addressError
  else if c.rangeProtected step off n then some .protectedWrite
  else none

end Sys2Proof.Machine
end

