-- ==== Sys2Proof/Machine/Handles.lean ====
section
/-! DEFINITION. Handles and the elements and vectors they hold (R115, R173, R230, R231, R265), the elements a store writes, and VE slots
(R165, R168). -/

namespace Sys2Proof.Machine

/-! ### Handles -/

/-- Handle `h`. -/
def Core.handle (c : Core) (h : Nat) : Handle := c.handles.get .reset h

/-- The core-relative offset of a handle offset: a ring handle wraps (R265), and the low bits that an element address may not have are
cleared (R15). -/
def Handle.at_ (h : Handle) (o : Nat) : Nat :=
  alignDown (h.base + (if h.rvalid && h.size != 0 then o % h.size else o)) h.fmt.size

/-- Element index `k` lies within a handle (R174, R265). -/
def Handle.has (h : Handle) (k : Nat) : Bool := h.rvalid || decide (h.fmt.size * (k + 1) ≤ h.size)

/-- A range of handle offsets lies within the handle; a ring handle has no end (R265). -/
def Handle.inside (h : Handle) (o n : Nat) : Bool := h.rvalid || decide (o + n ≤ h.size)

/-- Nonets of one tile of a skewed handle (R115, R231). -/
def Handle.tile (h : Handle) : Nat := 20736 * h.fmt.size

/-- The handle offset of element (i, j) of tile `t` of a skewed handle (R231). -/
def skewOff (w t i j : Nat) : Nat :=
  let p := 8 / w
  20736 * w * t + 8 * (144 * (j / p) + ((i + p * (j / p)) % 144)) + w * (j % p)

/-- The handle offset of element `e` of vector `v` (R115). -/
def Handle.elemOff (h : Handle) (orient : Bool) (v e : Nat) : Nat :=
  let w := h.fmt.size
  if h.skewed then
    if orient then skewOff w (v / 144) e (v % 144) else skewOff w (v / 144) (v % 144) e
  else 144 * w * v + w * e

/-- The handle offset of element index `x`, for the VE (R173). -/
def Handle.indexOff (h : Handle) (orient : Bool) (x : Nat) : Nat :=
  if h.skewed then h.elemOff orient (x / 144) (x % 144) else h.fmt.size * x

/-- The handle offset after the last element of vector `v` (R115, R120, R231): a row of a skewed tile ends on the tile's last line, a
column on its own. -/
def Handle.vecEnd (h : Handle) (orient : Bool) (v : Nat) : Nat :=
  if !h.skewed then 144 * h.fmt.size * (v + 1)
  else if orient then
    h.tile * (v / 144) + 8 * (144 * (v % 144 / (8 / h.fmt.size)) + 143) + h.fmt.size * (v % 144 % (8 / h.fmt.size)) + h.fmt.size
  else skewOff h.fmt.size (v / 144) (v % 144) 143 + h.fmt.size

/-- The element at a core-relative offset: its value with the scale on load, and its poison (R27, R116). -/
def Scratch.elem (s : Scratch) (h : Handle) (off : Nat) : OpEl :=
  let l := s.nts off h.fmt.size
  ⟨loadFl h.fmt h.scale (ntVal l), anyPoison l⟩

/-! ### Stores of elements -/

/-- Join runs of nonets that follow one another, so that a word written whole is written at once (R237). -/
def joinNts : List (Nat × List PNt) → List (Nat × List PNt)
  | [] => []
  | (o, d) :: r =>
    match joinNts r with
    | (o', d') :: r' => if o + d.length = o' then (o, d ++ d') :: r' else (o, d) :: (o', d') :: r'
    | [] => [(o, d)]

/-- The words that elements of `w` nonets at some offsets touch. -/
def elWords (w : Nat) (l : List Nat) : List Nat := dedup (l.flatMap fun o => wordsOf o w)

/-- The group a handle is bound to (R201). -/
def Core.boundGroup (c : Core) (h : Nat) : Option Nat :=
  let b := c.train.binds.get ⟨false, 0⟩ h
  if b.valid then some b.group else none

/-- The flags of a list of stored elements: (offset, encoding, poison, flags). -/
def stFlags (l : List (Nat × Nat × Bool × NumFlags)) : NumFlags := l.foldl (fun f e => f ||| e.2.2.2) nfNone

/-- What a store that overflows into a handle bound to group `g` does to the core's training status word (R213, R215, R216, R218): CEIL at MAXFMT,
LIMIT where the step has had its widenings, else its first request of the attempt waits for the remount. -/
def Core.overflowed (c : Core) (env : Env) (g : Nat) : Core :=
  let t := c.train
  let e := t.groups.get .reset g
  if e.maxfmt ≤ e.fmt then { c with train := { t with ceil := true } }
  else if env.policy = 1 then c
  else if env.widenUp then { c with train := { t with limit := true } }
  else if t.widenPend then c
  else { c with train := { t with widenPend := true, firstGroup := g } }

/-- A store's conversion overflowed on an element it writes to a bound handle in training mode (R213, R216). -/
def Core.overflowEff (c : Core) (env : Env) (h : Nat) (i : Iss) (l : List (Nat × Nat × Bool × NumFlags)) : List Eff :=
  match c.boundGroup h with
  | some g => if env.train && stFlags l &&& nfOvf != 0 then [.overflow g i.eng i.ctx i.pc] else []
  | none => []

/-! ### VE slots (R165, R166, R168) -/

/-- A nonet of the operand cache. -/
def Ve.nt (v : Ve) (a : Nat) : PNt := v.cache.get ⟨0, false⟩ (a % 131072)

/-- `n` nonets of the operand cache. -/
def Ve.nts (v : Ve) (a : Nat) : Nat → List PNt
  | 0 => []
  | n + 1 => v.nt a :: v.nts (a + 1) n

/-- The cache address of element `e` of a slot (R165). -/
def slotAddr (slot e w : Nat) : Nat := 64 * slot + e * w

/-- Element `e` of a slot in a format: its encoding and its poison. -/
def Ve.code (v : Ve) (slot : Nat) (f : Fmt) (e : Nat) : Nat × Bool :=
  let l := v.nts (slotAddr slot e f.size) f.size
  (ntVal l, anyPoison l)

/-- Element `e` of a slot in a format: its value and its poison. Values in the cache carry no scale (R167). -/
def Ve.elem (v : Ve) (slot : Nat) (f : Fmt) (e : Nat) : OpEl :=
  let c := v.code slot f e
  ⟨decodeFl f c.1, c.2⟩

/-- Bit `e` of a mask slot, and its poison (R168). -/
def Ve.maskBit (v : Ve) (slot e : Nat) : Bool × Bool :=
  let n := v.nt (64 * slot + e / 9)
  (n.v.toNat / 2 ^ (e % 9) % 2 == 1, n.p)

end Sys2Proof.Machine
end

