-- ==== Sys2Proof/Machine/OpeCore.lean ====
section
/-! DEFINITION. The array of the outer-product engine: operands and pairs, swap, drain rows, preloaded rows and the checksum row and
column (R107 to R110, R122 to R133, R139, R140). -/

namespace Sys2Proof.Machine

/-- Accumulator of a cell. -/
def AccSet.get (s : AccSet) (cell : Nat) : Acc := s.acc.get .zero cell

/-- The profile's swap-to-first-drained-row latency (R68). -/
def drainLatency (profile : Nat) : Nat :=
  match profile with
  | 1 => 14
  | 2 => 8
  | _ => 16

/-- The profile's table-function latency (R68). -/
def tableLatency (profile : Nat) : Nat :=
  match profile with
  | 1 => 14
  | 2 => 11
  | _ => 16

/-- One add of a cell (R23, R108, R139, R140): the accumulator and the flags. -/
def cellAdd (n36 stoch : Bool) (key : RngKey) (cell : Nat) (a b : OpEl) (acc : Acc) : Acc × NumFlags :=
  let (p, f1) := product (if n36 then .n36 else .n9) .n9 a.x b.x
  let nan := if a.x.isNan || b.x.isNan then nfNan else nfNone
  let (v, f2) := accAdd (rndOf stoch key cell acc.idx) acc.v p
  (⟨v, acc.p || a.p || b.p, acc.idx + 1⟩, f1 ||| f2 ||| nan)

/-- The adds of one array row for a pair that fall in cycle `sub` of the pair's adds, with group size `g` (R110). -/
def rowAdds (n36 stoch : Bool) (key : RngKey) (g sub i : Nat) (a : OpEl) :
    List (Nat × OpEl) → AccSet × NumFlags → AccSet × NumFlags
  | [], x => x
  | (j, b) :: bs, (s, f) =>
    if g * (i % g) + j % g = sub then
      let r := cellAdd n36 stoch key (144 * i + j) a b (s.get (144 * i + j))
      rowAdds n36 stoch key g sub i a bs ({ s with acc := s.acc.write .zero (144 * i + j) r.1 }, f ||| r.2)
    else rowAdds n36 stoch key g sub i a bs (s, f)

/-- Add one term to a checksum entry: the rounded product into X, the rounded magnitude product into G (R130). -/
def Chk.add (c : Chk) (e s : Fl) (m : Fl) : Chk :=
  let px := ofN36 (toN36 .near (e.mul s).1).1
  let pg := ofN36 (toN36 .near (e.abs.mul m).1).1
  ⟨(accAdd .near c.x px).1, (accAdd .near c.g pg).1⟩

/-- Exact sum of the operand values. -/
def sumEls (l : List (Nat × OpEl)) : Fl := exactSum (l.map fun e => e.2.x)

/-- Exact sum of the operand magnitudes. -/
def sumMags (l : List (Nat × OpEl)) : Fl := exactSum (l.map fun e => e.2.x.abs)

/-- Add the terms of one operand to the checksum entries of its rows, or columns (R130). -/
def chkTerms (es : List (Nat × OpEl)) (other : List (Nat × OpEl)) (m : SMap Chk) : SMap Chk :=
  if other.isEmpty then m
  else
    let s := sumEls other
    let g := sumMags other
    es.foldl (fun m e => m.write .zero e.1 ((m.get .zero e.1).add e.2.x s g)) m

/-- The adds of one problem for one pair that fall in cycle `sub` of its adds (R108, R110). -/
def probAdds (stoch : Bool) (key : RngKey) (g sub : Nat) (x : AccSet × NumFlags) (p : Prob) : AccSet × NumFlags :=
  p.a.foldl (fun x e => rowAdds p.n36 stoch key g sub e.1 e.2 p.b x) x

/-- One cycle of a pair's adds into the live set, with the flags of that cycle (R110, R140). -/
def Ope.addCells (o : Ope) (w : OStream) (key : RngKey) (sub : Nat) (ps : List Prob) : Ope :=
  let (s, f) := ps.foldl (probAdds w.rnd key w.g sub) (o.live, nfNone)
  { o with live := s, ns := o.ns ||| f }

/-- The checksum terms of a pair, in the cycle of its last add (R130). A row or column that two quadrants share takes the term of each,
rounded by itself, the quadrant of the lower number first. DESIGN CHOICE (log 115): R130 does not say how the two are joined. -/
def Ope.addTerms (o : Ope) (ps : List Prob) : Ope :=
  { o with live := ps.foldl (fun s p =>
      { s with byRow := chkTerms p.a p.b s.byRow, byCol := chkTerms p.b p.a s.byCol }) o.live }

/-- The shadow pipe is busy in cycle `t` (R127). -/
def Ope.busy (o : Ope) (t : Nat) : Bool := decide (o.busyFrom ≤ t) && decide (t ≤ o.busyTo)

/-- Exchange the sets (R122). -/
def Ope.exchange (o : Ope) : Ope := { o with live := o.shadow, shadow := o.live }

/-- Start the drain of the set that a swap in cycle `s` made shadow (R124, R127). -/
def Ope.startDrain (o : Ope) (s profile : Nat) (clr : Bool) (ctx pc : Nat) : Ope :=
  let first := s + drainLatency profile - 1
  { o with drain := some ⟨first, clr, [], 0, ctx, pc⟩, busyFrom := s, busyTo := first + 143 }

/-- A swap in cycle `s` (R122, R124, R127). -/
def Cx.swap (x : Cx) (s : Nat) (drn clr : Bool) (ctx pc : Nat) : Cx :=
  if x.c.ope.busy s then x.emit [.err .opeConflict 2 ctx pc 0]
  else
    let o := x.c.ope.exchange
    { x with c := { x.c with ope := if drn then o.startDrain s x.c.profile clr ctx pc else o } }

/-- Row `r` of a set. -/
def AccSet.row (s : AccSet) (r : Nat) : List Acc := (List.range 144).map fun j => s.get (144 * r + j)

/-- Zero row `r` of a set with its checksum column entry (R124, R131). -/
def AccSet.zeroRow (s : AccSet) (r : Nat) : AccSet :=
  { s with acc := s.acc.keep fun k => decide (k / 144 ≠ r), byRow := s.byRow.erase r }

/-- Load row `r` of a set, with its checksum column entry (R126, R131). -/
def AccSet.loadRow (s : AccSet) (r : Nat) (d : List Acc) : AccSet :=
  let vals := d.map fun a => ofN36 a.v
  let x := (toN36 .near (exactSum vals)).1
  let g := (toN36 .near (exactSum (vals.map Fl.abs))).1
  { s with
    acc := (s.acc.keep fun k => decide (k / 144 ≠ r)).writeList .zero (144 * r) d
    byRow := s.byRow.write .zero r ⟨x, g⟩ }

/-- Load the checksum row from the values of the set (R131). -/
def AccSet.loadCols (s : AccSet) : AccSet :=
  { s with byCol := (List.range 144).foldl (fun m j =>
      let vals := (List.range 144).map fun i => ofN36 (s.get (144 * i + j)).v
      m.write .zero j ⟨(toN36 .near (exactSum vals)).1, (toN36 .near (exactSum (vals.map Fl.abs))).1⟩) .empty }

/-- The largest update index of a list. -/
def maxIdx (l : List Acc) : Nat := l.foldl (fun n a => max n a.idx) 0

/-- Compare a list of accumulators with its checksum entry (R132). -/
def chkOf (lanes : Nat) (l : List Acc) (k : Chk) : ChkOut :=
  chkCompare lanes (maxIdx l) (l.map fun a => ofN36 a.v) (l.any (·.p)) (ofN36 k.x) (ofN36 k.g)

/-- Count one comparison of the OPE (R132, R135, R136). A count past 2^36 − 1 goes on from 0. DESIGN CHOICE (log 116): R136 does not say. -/
def Ope.count (o : Ope) (r : ChkOut) : Ope :=
  match r with
  | .unchecked => { o with unchecked := (o.unchecked + 1) % 2 ^ 36 }
  | .pass => { o with checked := (o.checked + 1) % 2 ^ 36 }
  | .near => { o with checked := (o.checked + 1) % 2 ^ 36, near := (o.near + 1) % 2 ^ 36, chkNear := true }
  | .fail => { o with checked := (o.checked + 1) % 2 ^ 36, chkFail := true }

/-- A near miss of an instruction counts toward the suggestion of a vetting run, which is made once, at the first near miss whose count exceeds the limit
that then stands (R462). -/
def Cx.nearMiss (x : Cx) (suggest eng ctx pc : Nat) : Cx :=
  let n := x.c.nearSince + 1
  let new := decide (suggest < n) && !x.c.suggested
  ({ x with c := { x.c with nearSince := n, suggested := x.c.suggested || new } } : Cx).emit (if new then [.event 0x0601 eng ctx pc 0] else [])

/-- Record the outcome of one OPE comparison: counts, and the trigger of a mismatch (R132, R133). -/
def Cx.opeCheck (x : Cx) (suggest : Nat) (i : Iss) (r : ChkOut) : Cx :=
  let x := { x with c := { x.c with ope := x.c.ope.count r } }
  match r with
  | .near => x.nearMiss suggest 2 i.ctx i.pc
  | .fail => x.emit [.trig .opeMismatch 2 i.ctx i.pc 0]
  | _ => x

/-- A row enters a tile-queue entry (R124, R128). -/
def Ope.tqPut (o : Ope) (slot r : Nat) (row : List Acc) : Ope :=
  { o with tqMem := o.tqMem.writeList .zero (20736 * slot + 144 * r) row }

/-- The entry the next drain takes: the one after the last one taken (R128). -/
def Ope.tqNext (o : Ope) : Nat := (o.tqHead + o.tqFill) % 4

/-- The next row of the drain in progress, in cycle `t`: it enters the tile queue and is zeroed with CLR. It is compared two cycles later,
and the columns two cycles after row 143, with the checksums as they stand now (R124, R128, R131, R132). -/
def Cx.drainRow (x : Cx) (t : Nat) : Cx :=
  match x.c.ope.drain with
  | none => x
  | some d =>
    let r := d.rows.length
    if r = 0 && x.c.ope.tqFill = 4 then x.emit [.err .tqOverflow 2 d.ctx d.pc 0]
    else
      let o := x.c.ope
      let i : Iss := ⟨t, x.c.nextTid, 2, d.ctx, d.pc⟩
      let d := if r = 0 then { d with slot := o.tqNext } else d
      let o := if r = 0 then { o with tqFill := o.tqFill + 1 } else o
      let row := o.shadow.row r
      let rows := d.rows ++ [row]
      let checks := (row, o.shadow.byRow.get .zero r) ::
        (if r = 143 then (List.range 144).map fun j => (rows.map fun l => l.getD j .zero, o.shadow.byCol.get .zero j) else [])
      let sh := if d.clr then o.shadow.zeroRow r else o.shadow
      let o := { o.tqPut d.slot r row with
        shadow := if d.clr && r = 143 then { sh with byCol := .empty } else sh
        drain := if r = 143 then none else some { d with rows := rows } }
      { x with c := ({ x.c with ope := o } : Core).pendWr i (t + 2) (.check 144 checks) }

/-- The cycle of the next drained row. -/
def Ope.drainDue (o : Ope) : Option Nat := o.drain.map fun d => d.first + d.rows.length

/-- Release the oldest tile-queue entry (R128). -/
def Ope.tqRelease (o : Ope) : Ope := { o with tqFill := o.tqFill - 1, tqHead := (o.tqHead + 1) % 4 }

/-- Row `r` of tile-queue entry `slot`: what the entry last took (R175). -/
def Ope.tqRow (o : Ope) (slot r : Nat) : List Acc := (List.range 144).map fun j => o.tqMem.get .zero (20736 * slot + 144 * r + j)

/-! ### Operands and their reads (R109, R110, R115, R116, R226) -/

/-- The tag of a turn-buffer half (R137). -/
def Ope.tag (o : Ope) (half : Bool) : Option TbTag := if half then o.tag1 else o.tag0

/-- The format of a turn-buffer code: N9, N9e or N18 (R137, R176). -/
def tbFmt (n : Nat) : Fmt := match n with | 0 => .n9 | 1 => .n9e | _ => .n18

/-- The format an operand's elements are read in. -/
def Opnd.fmt (o : Opnd) : Fmt :=
  match o.turn with
  | some (_, some t) => tbFmt t.fmt
  | some (_, none) => .n9
  | none => o.h.fmt

/-- Element (row, column) of a turn-buffer half, read under a tag (R137, R138). An element written in a format of another width has the
open value of `Config.turnRecode`. -/
def Ope.tbEl (o : Ope) (half : Bool) (tag : Option TbTag) (row col : Nat) : OpEl :=
  let e := o.tb.get .zero (20736 * b2n half + 144 * row + col)
  match tag with
  | none => ⟨.zero, e.p⟩
  | some t =>
    let code := if (tbFmt e.fmt).size = (tbFmt t.fmt).size || e.code = 0 then e.code else Config.turnRecode e.code e.fmt t.fmt
    ⟨loadFl (tbFmt t.fmt) t.scale code, e.p⟩

/-- The core-relative offset of element `e` of vector `v` of a scratchpad operand (R115). -/
def Opnd.off (o : Opnd) (v e : Nat) : Nat := o.h.at_ (o.h.elemOff o.orient v (o.first + e))

/-- The elements of an operand read in cycle `cyc` of a pair (R109, R226). DESIGN CHOICE (log 152): R226 gives the cycles of ports, and a turn-buffer operand
uses none (R118); elements 72 to 143 of an N18 vector of it are read in the pair's second cycle, as through a port. -/
def Opnd.part (o : Opnd) (cyc : Nat) : List Nat := (List.range o.n).filter fun e => e * o.fmt.size / o.span == cyc

/-- The elements of pair `k` of an operand that are read in cycle `cyc` of the pair, by array row or column. -/
def Core.opndEls (c : Core) (o : Opnd) (k cyc : Nat) : List (Nat × OpEl) :=
  (o.part cyc).map fun e =>
    (o.at_ + e,
     match o.turn with
     | some (half, tag) =>
       if o.orient then c.ope.tbEl half tag (o.first + e) (o.start + k) else c.ope.tbEl half tag (o.start + k) (o.first + e)
     | none => c.scr.elem o.h (o.off (o.start + k) e))

/-- The words of the elements that satisfy a test. -/
def Opnd.words (o : Opnd) (k cyc : Nat) (keep : Nat → Bool) : List Nat :=
  if o.turn.isSome then [] else elWords o.fmt.size (((o.part cyc).filter keep).map (o.off (o.start + k)))

/-- A problem with no enabled cell consumes no element (R116). -/
def Probl.dead (p : Probl) (rows : BitVec 144) : Bool := !((List.range p.a.n).any fun e => rows.getLsbD (p.a.at_ + e))

/-- The accesses of a problem in one cycle of a pair: one port for both operands in a quadrant, two otherwise (R226). -/
def Probl.accs (p : Probl) (k cyc : Nat) : List Access :=
  let a := p.a.words k cyc fun _ => true
  let b := p.b.words k cyc fun _ => true
  let l : List Access := if p.pa = p.pb then [⟨[p.pa], dedup (a ++ b)⟩] else [⟨[p.pa], a⟩, ⟨[p.pb], b⟩]
  l.filter fun a => !a.words.isEmpty

/-- The words that a problem consumes in one cycle of a pair. -/
def Probl.used (p : Probl) (rows : BitVec 144) (k cyc : Nat) : List Nat :=
  if p.dead rows then []
  else p.a.words k cyc (fun e => rows.getLsbD (p.a.at_ + e)) ++ p.b.words k cyc fun _ => true

/-- What one cycle of a pair adds to the elements read so far. -/
def Core.probRead (c : Core) (rows : BitVec 144) (k cyc : Nat) (p : Probl) (s : Prob) : Prob :=
  if p.dead rows then s
  else
    { s with
      a := s.a ++ (c.opndEls p.a k cyc).filter fun e => rows.getLsbD e.1
      b := s.b ++ c.opndEls p.b k cyc }

/-- A pair of which nothing has been read. -/
def Probl.begin_ (p : Probl) : Prob := ⟨p.a.fmt == .n36 || p.b.fmt == .n36, [], []⟩

/-- The cycles in which a pair's elements are read: the size in nonets of the widest operand's element (R226). -/
def OStream.reads (w : OStream) : Nat := w.ps.foldl (fun n p => max n (max p.a.fmt.size p.b.fmt.size)) 1

/-- The accesses of one cycle of pair `k`. -/
def OStream.accs (w : OStream) (k cyc : Nat) : List Access := w.ps.flatMap fun p => p.accs k cyc

/-- Cycle `cyc` of pair `k` of a stream, which falls in cycle `t` (R110): its elements are read; the pair's next cycle follows, or its
adds and checksum terms; and the next pair, `p` cycles after this one. -/
def Cx.pairRead (x : Cx) (i : Iss) (t : Nat) (w : OStream) (k cyc : Nat) (acc : List Prob) : Cx :=
  let ws := (w.accs k cyc).flatMap (·.words)
  let (c, effs) := x.c.staticRead i ws (w.ps.flatMap fun p => p.used w.rows k cyc)
  let got := List.zipWith (fun p s => c.probRead w.rows k cyc p s) w.ps acc
  let more : List Pend :=
    if cyc + 1 < w.reads then [⟨t + 1, i, .pair w k (cyc + 1) got⟩]
    else (List.range (w.g * w.g)).map (fun s => (⟨t - cyc + 4 + s, i, .adds w s got⟩ : Pend)) ++
      [⟨t - cyc + 3 + w.g * w.g, i, .terms got⟩]
  let next : List Pend := if cyc = 0 && decide (k + 1 < w.k) then [⟨t + w.p, i, .pair w (k + 1) 0 (w.ps.map Probl.begin_)⟩] else []
  ({ x with c := c.pendAll (more ++ next) } : Cx).emit effs

/-! ### PRELOAD and OMASK (R121, R126, R226) -/

/-- The ports of a PRELOAD (R226). -/
def preloadPorts (w : Nat) : List Nat := match w with | 1 => [2] | 2 => [2, 3] | _ => [2, 3, 0, 1]

/-- The words of a row of a PRELOAD. -/
def preWords (h : Handle) (v : Nat) : List Nat := elWords h.fmt.size ((List.range 144).map fun e => h.at_ (h.elemOff false v e))

/-- Row `r` of a PRELOAD in cycle `t`: it is read, where it has a vector, and loaded six cycles later, converted exactly to N36 (R37, R126); the
checksum row follows the last row (R131). -/
def Cx.preRead (x : Cx) (i : Iss) (t : Nat) (h : Handle) (start m r : Nat) : Cx :=
  let ws := if r < m then preWords h (start + r) else []
  let (c, effs) := x.c.staticRead i ws ws
  let row : List Acc := if r < m then (List.range 144).map fun e =>
      let el := c.scr.elem h (h.at_ (h.elemOff false (start + r) e))
      ⟨(toN36 .near el.x).1, el.p, 0⟩
    else List.replicate 144 .zero
  let l : List Pend := ⟨t + 6, i, .row r row⟩ :: [if r < 143 then ⟨t + 1, i, .preRow h start m (r + 1)⟩ else ⟨t + 6, i, .cols⟩]
  ({ x with c := c.pendAll l } : Cx).emit effs

/-- The two words of an OMASK are read in cycle `t`, and the mask holds them from the eighth cycle on; a poisoned word is a poisoned
control (R113, R121). -/
def Cx.maskRead (x : Cx) (i : Iss) (t q0 q1 : Nat) : Cx :=
  let (c, effs) := x.c.staticRead i [q0, q1] [q0, q1]
  let a := c.scr.cell q0
  let b := c.scr.cell q1
  let x := ({ x with c := c } : Cx).emit effs
  if a.p || b.p then x.emit [.err .poisonedControl i.eng i.ctx i.pc 0]
  else { x with c := x.c.pendWr i (t + 7) (.mask (BitVec.ofNat 144 (a.v.toNat + b.v.toNat * 2 ^ 72))) }

end Sys2Proof.Machine
end

