-- ==== Sys2Proof/Machine/MveCore.lean ====
section
/-! DEFINITION. The lanes of the matrix-vector engine: near requests and rest windows, the adds of a weight group, the
emission and the checksum lane (R142 to R156, R159, R160, R250 to R253). -/

namespace Sys2Proof.Machine

/-! ### Near requests and rest windows (R252) -/

/-- Cycle `t` is a rest-window cycle of a rest counter equal to the schedule cycle (R252, R253). -/
def isRest (t : Nat) : Bool := decide (7360 ≤ t % 7680)

/-- The number of cycles before `t` that are not rest-window cycles. -/
def workBefore (t : Nat) : Nat := t / 7680 * 7360 + min (t % 7680) 7360

/-- The cycle of request `n` of a transfer that starts in cycle `s` (R252). -/
def reqCycle (s n : Nat) : Nat :=
  let m := workBefore s + n
  m / 7360 * 7680 + m % 7360

/-! ### Streams -/

/-- Nonets of one weight group (R149). -/
def MCfg.groupNts (c : MCfg) : Nat := 96 * c.fmt.size

/-- The cycle in which group `k` of a stream is added (R151). -/
def MStream.addCycle (s : MStream) (k : Nat) : Nat := reqCycle s.start (s.cfg.fmt.size * (k + 1) - 1) + 100

/-- The cycle of the emission of a stream (R153). -/
def MStream.emitCycle (s : MStream) : Nat := s.lastReq + 106

/-- The requests a stream makes (R151). -/
def MStream.requests (s : MStream) : Nat := s.cfg.fmt.size * s.groups

/-- The cycle of the next request of a stream. -/
def MStream.reqDue (s : MStream) : Option Nat := if s.asked < s.requests then some (reqCycle s.start s.asked) else none

/-- The cycle of the next adds of a stream. -/
def MStream.addDue (s : MStream) : Option Nat := if s.next < s.groups then some (s.addCycle s.next) else none

/-- The smaller of two cycles that may be absent. -/
def minDue (a b : Option Nat) : Option Nat :=
  match a, b with
  | none, b => b
  | a, none => a
  | some a, some b => some (min a b)

/-- The cycle of the next event of a stream. -/
def MStream.due (s : MStream) : Option Nat :=
  minDue s.reqDue (if s.next < s.groups then s.addDue else if s.emit then some s.emitCycle else none)

/-- A stream has nothing left to do. -/
def MStream.done (s : MStream) : Bool := s.due.isNone

/-- The stream holds the near path or has adds outstanding (R158). -/
def MStream.streaming (s : MStream) : Bool := decide (s.next < s.groups)

/-- The request of cycle `d`, if the stream makes one then: it reads near memory as it stands (R151, R251). -/
def MStream.ask (s : MStream) (m : Mem) (d : Nat) : MStream :=
  if s.reqDue == some d then { s with asked := s.asked + 1, data := s.data ++ m.read (s.addr + 96 * s.asked) 96 } else s

/-- The requests of cycle `d`. -/
def Cx.requestsAt (x : Cx) (d : Nat) : Cx :=
  { x with c := { x.c with mve := { x.c.mve with streams := x.c.mve.streams.map fun s => s.ask x.mem d } } }

/-- The weights of a group as lane operands. -/
def laneEls (cfg : MCfg) (l : List PNt) : List OpEl :=
  (chunks cfg.fmt.size l).take cfg.lanes |>.map fun e => ⟨loadFl cfg.fmt cfg.scale (ntVal e), anyPoison e⟩

/-- One lane add (R150, R159, R160). -/
def laneAdd (stoch : Bool) (key : RngKey) (num : Nat) (w x : OpEl) (acc : Acc) : Acc × NumFlags :=
  cellAdd false stoch key num w x acc

/-- The adds of one group into the accumulators of vector `v`. -/
def laneAdds (stoch : Bool) (key : RngKey) (v : Nat) (x : OpEl) : Nat → List OpEl → SMap Acc × NumFlags → SMap Acc × NumFlags
  | _, [], r => r
  | l, w :: ws, (m, f) =>
    let n := 96 * v + l
    let r := laneAdd stoch key n w x (m.get .zero n)
    laneAdds stoch key v x (l + 1) ws (m.write .zero n r.1, f ||| r.2)

/-- Held element `e` of vector `v`. -/
def Mve.heldEl (m : Mve) (v e : Nat) : OpEl :=
  let h := m.held.get .zero (4096 * v + e)
  ⟨h.x, h.p⟩

/-- The adds and the checksum-lane terms of group `k` for one vector (R150, R156). -/
def Mve.addVec (m : Mve) (key : RngKey) (stoch : Bool) (e : Nat) (ws : List OpEl) (v : Nat) : Mve :=
  let x := m.heldEl v e
  let (acc, f) := laneAdds stoch key v x 0 ws (m.acc, nfNone)
  let els := ws.zipIdx.map fun w => (w.2, w.1)
  { m with
    acc := acc
    ns := m.ns ||| f
    lane := m.lane.write .zero v ((m.lane.get .zero v).add x.x (sumEls els) (sumMags els)) }

/-- Result-queue entry `slot`: what it last took (R153, R175). -/
def Mve.rqRow (m : Mve) (slot : Nat) : List Acc := (List.range 96).map fun l => m.rqMem.get .zero (96 * slot + l)

/-- The adds of the next group of the first stream in progress (R150). An add beyond held element 4,095 is not made. -/
def Mve.addGroup (m : Mve) (key : RngKey) (s : MStream) (nts : List PNt) : Mve :=
  let e := s.cfg.estart + s.next
  if 4095 < e then m
  else
    let ws := laneEls s.cfg nts
    s.vecs.foldl (fun m v => m.addVec key s.rnd e ws v) m

/-- Count one comparison of the MVE (R156, R157). A count past 2^36 − 1 goes on from 0. DESIGN CHOICE (log 116): R157 does not say. -/
def Mve.count (m : Mve) (r : ChkOut) : Mve :=
  match r with
  | .unchecked => { m with unchecked := (m.unchecked + 1) % 2 ^ 36 }
  | .pass => { m with checked := (m.checked + 1) % 2 ^ 36 }
  | .near => { m with checked := (m.checked + 1) % 2 ^ 36, near := (m.near + 1) % 2 ^ 36, chkNear := true }
  | .fail => { m with checked := (m.checked + 1) % 2 ^ 36, chkFail := true }

/-- The accumulators of a vector, in lane order. -/
def Mve.vec (m : Mve) (v : Nat) : List Acc := (List.range 96).map fun l => m.acc.get .zero (96 * v + l)

/-- Emit one vector: its entry enters the result queue, its accumulators and checksum lane are zeroed, and the entry is
compared with the lane (R153, R156). -/
def Cx.emitVec (x : Cx) (suggest ctx pc v : Nat) : Cx :=
  let m := x.c.mve
  let row := m.vec v
  let slot := (m.rqHead + m.rqFill) % 8
  let out := chkOf 96 row (m.lane.get .zero v)
  let m := { m with
    rqFill := m.rqFill + 1
    rqMem := m.rqMem.writeList .zero (96 * slot) row
    rqVec := m.rqVec.write 0 slot v
    acc := m.acc.keep fun k => decide (k / 96 ≠ v)
    lane := m.lane.erase v }
  let x := { x with c := { x.c with mve := m.count out } }
  match out with
  | .near => x.nearMiss suggest 3 ctx pc
  | .fail => x.emit [.trig .mveMismatch 3 ctx pc v]
  | _ => x

/-- The emission of a stream (R153). -/
def Cx.emission (x : Cx) (suggest : Nat) (s : MStream) : Cx :=
  if 8 < x.c.mve.rqFill + s.vecs.length then x.emit [.err .rqOverflow 3 s.ctx s.pc 0]
  else s.vecs.foldl (fun x v => x.emitVec suggest s.ctx s.pc v) x

/-- Put a stream back after an event, or drop it when it is done. -/
def Mve.setStream (m : Mve) (i : Nat) (s : MStream) : Mve :=
  { m with streams := (listSet m.streams i s).filter fun s => !s.done }

/-- The emissions that fall in cycle `d`. -/
def Cx.emissionsAt (x : Cx) (suggest d : Nat) : Cx :=
  let due := x.c.mve.streams.filter fun s => s.next == s.groups && s.emit && s.emitCycle == d
  let x := due.foldl (fun x s => x.emission suggest s) x
  { x with c := { x.c with mve := { x.c.mve with
      streams := x.c.mve.streams.filter fun s => !(s.next == s.groups && s.emit && s.emitCycle == d) } } }

/-- The group adds that fall in cycle `d`, the earlier stream first. -/
def Cx.groupsAt (x : Cx) (key : RngKey) (d : Nat) : Cx :=
  let go := fun (x : Cx) (i : Nat) =>
    match x.c.mve.streams[i]? with
    | some s =>
      if s.next < s.groups && s.addCycle s.next == d then
        let m := x.c.mve.addGroup key s (s.data.take s.cfg.groupNts)
        let s' := { s with next := s.next + 1, data := s.data.drop s.cfg.groupNts }
        { x with c := { x.c with mve := { m with streams := listSet m.streams i s' } } }
      else x
    | none => x
  let x := (List.range x.c.mve.streams.length).foldl go x
  { x with c := { x.c with mve := { x.c.mve with streams := x.c.mve.streams.filter fun s => !s.done } } }

/-- The elements of chunk `k` of an HLOAD of `n` elements (R226). -/
def chunkEls (h : Handle) (n k : Nat) : List Nat :=
  let per := 144 / h.fmt.size
  (List.range (min per (n - per * k))).map (per * k + ·)

/-- The handle offset of source element `e` of an HLOAD. -/
def chunkOff (h : Handle) (soff e : Nat) : Nat := h.fmt.size * (96 * soff + e)

/-- The words of the elements of a chunk that lie in the handle and satisfy a test. -/
def chunkWords (h : Handle) (n soff k : Nat) (keep : Nat → Bool) : List Nat :=
  elWords h.fmt.size (((chunkEls h n k).filter fun e => h.inside (chunkOff h soff e) h.fmt.size && keep e).map fun e =>
    h.at_ (chunkOff h soff e))

/-- Chunk `k` of an HLOAD in cycle `t`, from source element 96 × `soff` on: it is read, and its elements are written six cycles later, those
past the handle's end as +0 and none above held element 4,095 (R147, R226). -/
def Cx.chunkRead (x : Cx) (i : Iss) (t v : Nat) (h : Handle) (eoff n soff k : Nat) : Cx :=
  let used := chunkWords h n soff k fun e => decide (eoff + e ≤ 4095)
  let (c, effs) := x.c.staticRead i (chunkWords h n soff k fun _ => true) used
  let els := ((chunkEls h n k).filter fun e => decide (eoff + e ≤ 4095)).map fun e =>
    if h.inside (chunkOff h soff e) h.fmt.size then
      let o := c.scr.elem h (h.at_ (chunkOff h soff e))
      (⟨o.x, o.x.isNan, o.p⟩ : HeldEl)
    else .zero
  let per := 144 / h.fmt.size
  let load : List Pend := if els.isEmpty then [] else [⟨t + 6, i, .held (4096 * v + eoff + per * k) els⟩]
  let next : List Pend := if per * (k + 1) < n then [⟨t + 1, i, .chunk v h eoff n soff (k + 1)⟩] else []
  ({ x with c := c.pendAll (load ++ next) } : Cx).emit effs

/-- Release the head result-queue entry (R154, R155). -/
def Mve.rqRelease (m : Mve) : Mve := { m with rqFill := m.rqFill - 1, rqHead := (m.rqHead + 1) % 8 }

end Sys2Proof.Machine
end

