-- ==== Sys2Proof/Machine/Control.lean ====
section
/-! DEFINITION. The core control block (R44, R45): the word at every offset, what the SE may write (R98), and what the host
and Irair may write (R51). -/

namespace Sys2Proof.Machine

/-- A word from (value, low bit) fields. -/
def packWord (l : List (Nat × Nat)) : Word := BitVec.ofNat 72 (l.foldl (fun n f => n + f.1 * 2 ^ f.2) 0)

/-- A signed field of `n` bits. -/
def sfield (n : Nat) (i : Int) : Nat := enc2 n i

/-! ### Engines -/

/-- Context `x` of an engine. -/
def Engine.ctx (e : Engine) (x : Nat) : Ctx := e.ctxs.get .reset x

/-- The context in turn. -/
def Engine.here (e : Engine) : Ctx := e.ctx e.cur

/-- Replace a context. -/
def Engine.setCtx (e : Engine) (x : Nat) (k : Ctx) : Engine := { e with ctxs := e.ctxs.put x k }

/-- Engine `e` of a core. -/
def Core.eng (c : Core) (e : Nat) : Engine := c.engs.get .reset e

/-- Replace an engine. -/
def Core.setEng (c : Core) (e : Nat) (g : Engine) : Core := { c with engs := c.engs.put e g }

/-- The instruction at the head of a context: from the loop buffer once taken, else the queue's first (R86). -/
def Ctx.head (k : Ctx) : Option Word :=
  if 0 < k.skip then none
  else if !k.levels.isEmpty && decide (k.pc - k.bufBase < k.buf.length) then k.buf[k.pc - k.bufBase]?
  else k.queue.head?

/-- The wait kind and id of an instruction word (R75). -/
def waitOf (w : Word) : Nat × Nat := (bits w 61 60, bits w 59 54)

/-- The code of an engine state (R50). -/
def EngSt.code : EngSt → Nat
  | .off => 0 | .idle => 1 | .running => 2 | .waiting => 3 | .draining => 4 | .halted => 5

/-- An engine or context state word (R50, R290). A hold under R318 is none of a wait: it reads kind 0. -/
def stateWord (st : EngSt) (fill : Nat) (k : Ctx) : Word :=
  let (wk, wi) := if st = .waiting && !k.waited then (match k.head with | some w => waitOf w | none => (0, 0)) else (0, 0)
  packWord [(min fill 512, 50), (st.code, 47), (wk, 45), (wi, 39), (k.pc % 2 ^ 36, 0)]

/-- The state word of engine `e` (R50). -/
def Core.engineWord (c : Core) (e : Nat) : Word :=
  let g := c.eng e
  stateWord g.st (g.ctxs.entries.foldl (fun n k => n + k.2.queue.length) 0) g.here

/-- The state of a context of an engine (R50, R289, R290): in turn, that of the engine; out of turn, Halted once its stream has ended and
Waiting while its wait is pending. DESIGN CHOICE (log 120): a context out of turn that is neither reads as its engine does, Running in place
of Waiting, since its own head holds on nothing. -/
def Engine.ctxState (g : Engine) (x : Nat) : EngSt :=
  if x = g.cur then g.st
  else if g.nctx ≤ x then .off
  else if (g.ctx x).ended then .halted
  else if (g.ctx x).held.isSome then .waiting
  else if g.st = .waiting then .running
  else g.st

/-- The cycles of the present step for which a hold that began in cycle `h` has gone on by cycle `t` (R61). -/
def Core.heldFor (c : Core) (t h : Nat) : Nat := t - max h c.stepStart

/-- Scheduled holds of the contexts in turn that have not ended, in cycles of the present step: those in which the engine itself is held (R60,
R61). -/
def Core.openSlip (c : Core) : Nat :=
  c.engs.entries.foldl (fun n e =>
    let k := e.2.here
    if k.held.isSome && k.scheduled then n + c.heldFor c.now k.slipFrom else n) 0

/-- Step slip cycles, holds that have not ended included (R61). -/
def Core.slipCycles (c : Core) : Nat := (c.st.stepSlip + c.openSlip) % 2 ^ 36

/-! ### Words of the units -/

/-- A ring slot state word (R49). -/
def Ring.word (r : Ring) : Word :=
  packWord [(b2n r.en, 26), (r.prod, 23), (r.cons, 20), (r.last, 16), (r.head, 12), (r.tail, 8), (r.full, 0)]

/-- The ring slot state of a word (R49). -/
def Ring.ofWord (w : Word) : Ring :=
  ⟨bit w 26, bits w 25 23, bits w 22 20, bits w 19 16, bits w 15 12, bits w 11 8, bits w 4 0⟩

/-- R49 refuses a ring slot state. -/
def Ring.refused (r : Ring) : Bool := r.en && (r.prod == r.cons || decide (r.last < 2))

/-- Word 0 of a handle (R232). -/
def Handle.word0 (h : Handle) : Word :=
  packWord [(b2n h.valid, 63), (b2n h.skewed, 62), (h.prot, 60), (h.fmt.code, 57), (sfield 9 h.scale, 48), (h.base, 0)]

/-- Word 1 of a handle (R233). -/
def Handle.word1 (h : Handle) : Word := packWord [(b2n h.rvalid, 28), (h.ring, 23), (h.size, 0)]

/-- A handle from its two words (R232, R233). -/
def Handle.ofWords (a b : Word) : Handle :=
  ⟨bit a 63, bit a 62, bits a 61 60, Fmt.ofCode (bits a 59 57), sgn 9 (bits a 56 48), bits a 21 0,
   bit b 28, bits b 27 23, bits b 22 0⟩

/-- A credit register word (R244). -/
def Credit.word (k : Credit) : Word :=
  packWord [(k.chip, 48), (k.core, 40), (b2n k.valid, 39), (b2n k.sigen, 38), (k.counter, 34), (k.credit, 0)]

/-- A credit register from its word (R244). -/
def Credit.ofWord (w : Word) : Credit :=
  ⟨bits w 63 48, bits w 47 40, bit w 39, bit w 38, bits w 37 34, bits w 25 0⟩

/-- A decoupling-queue status word (R274). -/
def DQueue.word (q : DQueue) : Word :=
  packWord [(q.st, 38), (b2n q.poison, 37), (b2n q.err, 36), (if q.st = 0 then 0 else q.size, 0)]

/-- A regulator word (R277). -/
def Regulator.word (r : Regulator) : Word := packWord [(r.rate, 40), (r.depth, 24), (r.tokens64 / 64, 0)]

/-- A pointer register word (R172). -/
def VPtr.word (p : VPtr) : Word := packWord [(p.h, 24), (b2n p.orient, 23), (p.off, 0)]

/-- The word at an offset of a stats buffer (R189). -/
def Stats.word (s : Stats) (o : Nat) : Word :=
  if o = 0 then packWord [(b2n s.poisoned, 45), (sfield 9 s.base, 36), (s.total, 0)]
  else if o = 8 then packWord [(b2n s.valid, 12), (sfield 12 s.maxexp, 0)]
  else if o = 0x10 then packWord [(s.zeros, 0)]
  else if o = 0x18 then packWord [(s.nans, 0)]
  else if o = 0x20 then packWord [(s.infs, 0)]
  else if 0x40 ≤ o then packWord [(s.bins.get 0 ((o - 0x40) / 8), 0)]
  else 0

/-- A group entry word (R202). -/
def Group.word (g : Group) : Word :=
  packWord [(b2n g.valid, 63), (b2n g.widened, 62), (g.fmt, 60), (g.maxfmt, 58), (sfield 9 g.scale, 49), (g.widens, 0)]

/-- A group entry from its word (R202). -/
def Group.ofWord (w : Word) : Group :=
  ⟨bit w 63, bit w 62, bits w 61 60, bits w 59 58, sgn 9 (bits w 57 49), bits w 35 0⟩

/-- A pending word (R203). -/
def GPend.word (p : GPend) : Word :=
  packWord [(b2n p.valid, 27), (b2n p.nonfin, 26), (b2n p.any, 25),
    (if p.any then sfield 12 p.top else 0, 12), (if p.any then sfield 12 p.low else 0, 0)]

/-- Words held in a receive ring, pads included (R297). -/
def MEnd.fill (e : MEnd) : Nat := e.recs.foldl (fun n r => n + r.words) 0

/-- The record at the head of a receive ring: the one that has landed at RPOS (R297, R303). -/
def MEnd.headRec (e : MEnd) : Option MsgRec := e.recs.find? fun r => r.pos == e.pos

/-- A message is receivable at the head (R303). -/
def MEnd.headMsg (e : MEnd) : Option MsgRec :=
  match e.headRec with
  | some r => if r.pad then none else some r
  | none => none

/-- The record at the head is handled. -/
def MEnd.dropHead (e : MEnd) : List MsgRec := e.recs.filter fun r => r.pos != e.pos

/-- Word 0 of a channel end (R296). -/
def MEnd.word0 (e : MEnd) : Word :=
  packWord [(e.role, 70), (b2n e.session, 69), (e.cls, 67), (b2n e.res, 66), (e.prio, 62), (e.pchip, 46), (e.pcore, 38),
    (e.pend, 33), (e.handle, 27), (e.dly, 4)]

/-- A channel end from its word 0 (R296). -/
def MEnd.ofWord (w : Word) : MEnd :=
  { MEnd.reset with
    role := bits w 71 70, session := bit w 69, cls := bits w 68 67, res := bit w 66, prio := bits w 65 62
    pchip := bits w 61 46, pcore := bits w 45 38, pend := bits w 37 33, handle := bits w 32 27, dly := bits w 26 4 }

/-- Word 1 of a channel end (R297). -/
def MEnd.word1 (e : MEnd) : Word :=
  let f := if e.role = 2 then (if e.session then 0 else e.fill) else e.credit
  let q := if e.role = 2 then (match e.headMsg with | some r => r.seq | none => e.seq) else e.seq
  packWord [(f, 41), (e.pos, 22), (b2n e.blocked, 21), (q % 2048, 0)]

/-- A message header word (R301). -/
def msgHeader (tag seq len : Nat) : Word := packWord [(tag, 61), (seq % 2048, 50), (len, 0)]

/-- A pad record's header word (R301). -/
def padHeader (len : Nat) : Word := packWord [(1, 70), (len, 0)]

/-- Words 2 and 3 of a channel end (R298); `more` counts the cycles of a hold that has not ended. -/
def MEnd.word23 (e : MEnd) (more : Nat) (three : Bool) : Word :=
  if e.role ≠ 0 && e.session && e.role ≠ 3 then
    packWord [(if three then satAdd (2 ^ 36 - 1) e.stalls more else e.count, 0)]
  else if e.role = 2 && !three then (match e.headMsg with | some r => msgHeader r.tag r.seq r.len | none => 0)
  else 0

/-- Word 0 of a combining queue (R312). -/
def CombQ.word0 (q : CombQ) : Word :=
  packWord [(b2n q.valid, 63), (b2n q.n36, 62), (q.count, 56), (q.size, 46), (q.counter, 42)]

/-- A combining queue from its word 0 (R312). -/
def CombQ.ofWord (w : Word) : CombQ :=
  { CombQ.reset with valid := bit w 63, n36 := bit w 62, count := bits w 61 56, size := bits w 55 46, counter := bits w 45 42 }

/-- Word 1 of a combining queue (R313). -/
def CombQ.word1 (q : CombQ) : Word :=
  packWord [(b2n q.complete, 38), (b2n q.poison, 37), (b2n q.ovf, 36), (b2n q.nan, 35), (q.arrived, 28), (popcount 64 q.added, 21)]

/-- The receive record RX (R309). -/
def Rx.word (r : Rx) : Word :=
  packWord [(b2n r.valid, 58), (b2n r.poison, 57), (r.endn, 52), (r.tag, 44), (r.seq, 33), (r.len, 23), (r.off, 0)]

/-- OPE status (R135). -/
def Core.opeStatus (c : Core) : Word :=
  packWord [(c.ope.tqFill, 23), (b2n (c.ope.busy c.now), 22), (b2n c.ope.tag1.isSome, 21), (b2n c.ope.tag0.isSome, 20),
    (b2n c.ope.chkFail, 19), (b2n c.ope.chkNear, 18)]

/-- MVE status (R158). -/
def Core.mveStatus (c : Core) : Word :=
  packWord [(c.mve.rqFill, 16), (b2n (c.mve.streams.any MStream.streaming), 15), (b2n c.mve.chkFail, 14), (b2n c.mve.chkNear, 13)]

/-- The code of a VE format (R171). -/
def vfmtCode (f : Fmt) : Nat := match f with | .n9 => 0 | .n9e => 1 | .n18 => 2 | _ => 3

/-- VE status (R192). -/
def Core.veStatus (c : Core) : Word :=
  packWord [(b2n c.ve.resFail, 39), (b2n c.ve.cfg.empty, 38), (vfmtCode c.ve.cfg.fmt, 36), (c.ve.cfg.len, 20),
    (c.ve.cfg.seg - 1, 8)]

/-- The banks that are powered, a waking or draining one among them (R239 to R242). -/
def Scratch.banksPowered (s : Scratch) : Nat := s.banksOn ||| s.banksWaking ||| s.banksDraining

/-- Scratchpad status (R239). -/
def Scratch.word (s : Scratch) : Word :=
  packWord [(b2n s.ue, 39), (b2n s.rbw, 38), (s.banksPowered, 22), (if s.rbw then s.rbwAddr else 0, 0)]

/-- Core status (R46). -/
def Core.statusWord (c : Core) : Word :=
  packWord [(c.profile, 20), (b2n c.st.sigOvr, 19), (b2n c.st.cntWrap, 18), (b2n c.st.slip, 17), (b2n c.st.progErr, 16)]

/-- Training status (R218). -/
def Train.word (t : Train) : Word :=
  packWord [(b2n t.widenPend, 11), (b2n t.ceil, 10), (b2n t.limit, 9), (if t.widenPend then t.firstGroup else 0, 0)]

/-! ### Reading (R98) -/

/-- A word of plain value. -/
def plain (n : Nat) : Word := BitVec.ofNat 72 n

/-- The low part of the control block: offsets below 0x0D00. -/
def Core.ctlLow (c : Core) (o : Nat) : Word :=
  if o = 0x0000 then c.statusWord
  else if o = 0x0008 then plain c.coup.flags.toNat
  else if o = 0x0010 then
    packWord [(b2n c.st.sigRec.valid, 49), (c.st.sigRec.engine, 46), (c.st.sigRec.flag, 40), (c.st.sigRec.pc, 0)]
  else if o = 0x0018 then plain c.st.slipCount
  else if o = 0x0020 then
    packWord [(b2n c.st.firstSlip.valid, 49), (c.st.firstSlip.engine, 46), (c.st.firstSlip.wkind, 44),
      (c.st.firstSlip.wid, 38), (c.st.firstSlip.pc, 0)]
  else if o = 0x0028 then plain c.slipCycles
  else if o = 0x0030 then plain c.ope.ns.toNat
  else if o = 0x0038 then plain c.mve.ns.toNat
  else if o = 0x0040 then plain c.ve.ns.toNat
  else if o = 0x0048 then plain c.st.feedStall
  else if o = 0x0050 then c.opeStatus
  else if o = 0x0058 then plain c.ope.checked
  else if o = 0x0060 then plain c.ope.near
  else if o = 0x0068 then plain c.ope.unchecked
  else if 0x0080 ≤ o && o < 0x0100 then plain (c.coup.cnt.get 0 ((o - 0x80) / 8))
  else if 0x0100 ≤ o && o < 0x0180 then plain (c.coup.tgt.get 0 ((o - 0x100) / 8))
  else if 0x0200 ≤ o && o < 0x0300 then (c.coup.ring ((o - 0x200) / 8)).word
  else if 0x0300 ≤ o && o < 0x0400 then
    let p := c.coup.pos.get .reset ((o - 0x300) / 8)
    packWord [(p.inflight, 4), (p.next, 0)]
  else if 0x0400 ≤ o && o < 0x0430 then c.engineWord ((o - 0x400) / 8)
  else if 0x0800 ≤ o && o < 0x0980 then plain (c.loopCnt.get 0 ((o - 0x800) / 8))
  else if 0x0A00 ≤ o && o < 0x0B00 then plain (c.te.areg.get 0 ((o - 0xA00) / 8))
  else if o = 0x0C00 then c.mveStatus
  else if o = 0x0C08 then plain c.mve.checked
  else if o = 0x0C10 then plain c.mve.near
  else if o = 0x0C18 then plain c.mve.unchecked
  else 0

/-- The middle part: offsets 0x0D00 to 0x2FFF. -/
def Core.ctlMid (c : Core) (o : Nat) : Word :=
  if o = 0x0D00 then c.veStatus
  else if o = 0x0D08 then plain c.ve.resCount
  else if o = 0x0D10 then packWord [(b2n c.ve.vcntP, 16), (c.ve.vcnt, 0)]
  else if 0x0D40 ≤ o && o < 0x0D80 then (c.ve.ptrs.get .reset ((o - 0xD40) / 8)).word
  else if 0x1000 ≤ o && o < 0x2400 then (c.ve.stats.get .reset ((o - 0x1000) / 0x140)).word ((o - 0x1000) % 0x140)
  else if 0x2400 ≤ o && o < 0x2C00 then
    let g := (o - 0x2400) / 16
    if o % 16 = 0 then (c.train.groups.get .reset g).word else (c.train.pend.get .reset g).word
  else if 0x2C00 ≤ o && o < 0x2E00 then
    let b := c.train.binds.get ⟨false, 0⟩ ((o - 0x2C00) / 8)
    packWord [(b2n b.valid, 7), (b.group, 0)]
  else if o = 0x2E00 then c.train.word
  else 0

/-- The high part: offsets from 0x3000. -/
def Core.ctlHigh (c : Core) (o : Nat) : Word :=
  if 0x3000 ≤ o && o < 0x3400 then
    let h := c.handles.get .reset ((o - 0x3000) / 16)
    if o % 16 = 0 then h.word0 else h.word1
  else if o = 0x3400 then c.scr.word
  else if o = 0x3408 then plain c.scr.corrected
  else if o = 0x3410 then plain c.scr.uncorrected
  else if 0x3500 ≤ o && o < 0x3580 then (c.te.credits.get .reset ((o - 0x3500) / 8)).word
  else if 0x3600 ≤ o && o < 0x3680 then (c.te.dq.get .reset ((o - 0x3600) / 8)).word
  else if 0x3700 ≤ o && o < 0x3720 then (c.te.regs.get .reset ((o - 0x3700) / 8)).word
  else if 0x3720 ≤ o && o < 0x3740 then plain (c.te.regs.get .reset ((o - 0x3720) / 8)).throttle
  else if o = 0x3780 then packWord [(b2n c.te.lightValid, 39), (c.te.lightCounter, 35), (c.te.lightBase, 0)]
  else if o = 0x3788 then packWord [(b2n c.te.lightRefused, 37), (c.te.lightLanded, 0)]
  else if o = 0x3790 then packWord [(min c.te.fill 16384, 37), (c.te.outStall, 0)]
  else if 0x3800 ≤ o && o < 0x38C0 then
    let g := c.eng ((o - 0x3800) / 0x20)
    let x := (o - 0x3800) % 0x20 / 8
    stateWord (g.ctxState x) (g.ctx x).queue.length (g.ctx x)
  else if 0x4000 ≤ o && o < 0x4400 then
    let e := c.me.ends.get .reset ((o - 0x4000) / 0x20)
    let k := (o - 0x4000) % 0x20
    let more := if nbit c.me.bmask ((o - 0x4000) / 0x20) && c.me.bkind != 0 then c.now - c.me.bsince else 0
    if k = 0 then e.word0 else if k = 8 then e.word1 else e.word23 more (k == 0x18)
  else if o = 0x4400 then
    packWord [(b2n (c.me.bkind != 0), 15), (c.me.bkind, 13), (c.me.bend, 8), (c.me.rot, 0)]
  else if o = 0x4408 then c.me.rx.word
  else if 0x4800 ≤ o && o < 0x4880 then
    let q := c.me.comb.get .reset ((o - 0x4800) / 16)
    if o % 16 = 0 then q.word0 else q.word1
  else 0

/-- The control word at an offset; reserved offsets read as zero (R98). -/
def Core.ctlRead (c : Core) (o : Nat) : Word :=
  if o < 0x0D00 then c.ctlLow o else if o < 0x3000 then c.ctlMid o else c.ctlHigh o

/-- A CWR of VCNT or RX copies its poison (R183, R309). -/
def Core.ctlPoison (c : Core) (o : Nat) : Bool :=
  if o = 0x0D10 then c.ve.vcntP else if o = 0x4408 then c.me.rx.poison else false

/-! ### Writing (R51, R98) -/

/-- An offset a control-window access may use: 0 to 0xFFF8, a multiple of 8 (R98). -/
def ctlOffsetOk (o : Nat) : Bool := decide (o ≤ 0xFFF8) && o % 8 == 0

/-- The offsets that CWW may write (R98). -/
def cwwAllowed (o : Nat) : Bool :=
  o == 0x0008 || o == 0x0010 || o == 0x0018 || o == 0x0020 || o == 0x0030 || o == 0x0038 || o == 0x0040 || o == 0x0048 ||
  (decide (0x0080 ≤ o) && decide (o ≤ 0x0178)) || (decide (0x0200 ≤ o) && decide (o ≤ 0x02F8)) ||
  (decide (0x0800 ≤ o) && decide (o < 0x0980)) || (decide (0x0A00 ≤ o) && decide (o ≤ 0x0AF8))

/-- A CWW that R98 refuses: a forbidden offset, or a ring slot state that R49 refuses. -/
def cwwRefused (o : Nat) (w : Word) : Bool :=
  !cwwAllowed o || (decide (0x0200 ≤ o) && decide (o ≤ 0x02F8) && (Ring.ofWord w).refused)

/-- The numeric status words: their sticky bits are cleared before the flags of the cycle are set (R40). -/
def Core.ctlWriteNum (c : Core) (o : Nat) (w : Word) : Core :=
  if o = 0x0030 then { c with ope := { c.ope with ns := numW1c c.ope.ns w } }
  else if o = 0x0038 then { c with mve := { c.mve with ns := numW1c c.mve.ns w } }
  else if o = 0x0040 then { c with ve := { c.ve with ns := numW1c c.ve.ns w } }
  else c

/-- Write a word that the SE may write (R98, R268). -/
def Core.ctlWrite (c : Core) (o : Nat) (w : Word) : Core :=
  if o = 0x0008 then { c with coup := { c.coup with flags := BitVec.ofNat 64 w.toNat } }
  else if o = 0x0010 then
    { c with st := { c.st with sigRec := { c.st.sigRec with valid := w1c c.st.sigRec.valid w 49 } } }
  else if o = 0x0018 then { c with st := { c.st with slipCount := bits w 35 0 } }
  else if o = 0x0020 then
    { c with st := { c.st with firstSlip := { c.st.firstSlip with valid := w1c c.st.firstSlip.valid w 49 } } }
  else if o = 0x0048 then { c with st := { c.st with feedStall := bits w 35 0 } }
  else if 0x0080 ≤ o && o ≤ 0x00F8 then
    { c with coup := { c.coup with cnt := c.coup.cnt.write 0 ((o - 0x80) / 8) (bits w 35 0) } }
  else if 0x0100 ≤ o && o ≤ 0x0178 then
    { c with coup := { c.coup with tgt := c.coup.tgt.write 0 ((o - 0x100) / 8) (bits w 35 0) } }
  else if 0x0200 ≤ o && o ≤ 0x02F8 then
    let r := (o - 0x200) / 8
    let co := c.coup.setRing r (Ring.ofWord w)
    { c with coup := { co with pos := co.pos.write .reset r ⟨(Ring.ofWord w).tail, 0⟩ } }
  else if 0x0800 ≤ o && o < 0x0980 then { c with loopCnt := c.loopCnt.write 0 ((o - 0x800) / 8) (bits w 35 0) }
  else if 0x0A00 ≤ o && o ≤ 0x0AF8 then { c with te := { c.te with areg := c.te.areg.write 0 ((o - 0xA00) / 8) (bits w 59 0) } }
  else c

/-- Clear the sticky bits that a word names (R8): the writes the host and Irair may make at any time, with the slip count
(R51). `none`: the offset holds no such bit. -/
def Core.hostSticky (c : Core) (o : Nat) (w : Word) : Option Core :=
  if o = 0x0000 then
    some { c with st := { c.st with
      sigOvr := w1c c.st.sigOvr w 19, cntWrap := w1c c.st.cntWrap w 18, slip := w1c c.st.slip w 17 } }
  else if o = 0x0010 || o = 0x0018 || o = 0x0020 then some (c.ctlWrite o w)
  else if o = 0x0030 || o = 0x0038 || o = 0x0040 then some (c.ctlWriteNum o w)
  else if o = 0x0050 then
    some { c with ope := { c.ope with chkFail := w1c c.ope.chkFail w 19, chkNear := w1c c.ope.chkNear w 18 } }
  else if o = 0x0C00 then
    some { c with mve := { c.mve with chkFail := w1c c.mve.chkFail w 14, chkNear := w1c c.mve.chkNear w 13 } }
  else if o = 0x0D00 then some { c with ve := { c.ve with resFail := w1c c.ve.resFail w 39 } }
  else if o = 0x2E00 then
    some { c with train := { c.train with ceil := w1c c.train.ceil w 10, limit := w1c c.train.limit w 9 } }
  else if o = 0x3400 then some { c with scr := { c.scr with ue := w1c c.scr.ue w 39, rbw := w1c c.scr.rbw w 38 } }
  else if o = 0x3788 then some { c with te := { c.te with lightRefused := w1c c.te.lightRefused w 37 } }
  else if 0x4800 ≤ o && o < 0x4880 && o % 16 = 8 then
    let n := (o - 0x4800) / 16
    let q := c.me.comb.get .reset n
    some { c with me := { c.me with comb := c.me.comb.write .reset n { q with
      poison := w1c q.poison w 37, ovf := w1c q.ovf w 36, nan := w1c q.nan w 35 } } }
  else none

/-- The settable counts and registers that the host may write while no program runs on the core (R51, R91, R136, R277,
R281); a write to a read-only register is ignored (R8). -/
def Core.hostSet (c : Core) (o : Nat) (w : Word) : Core :=
  let n := bits w 35 0
  if o = 0x0058 then { c with ope := { c.ope with checked := n } }
  else if o = 0x0060 then { c with ope := { c.ope with near := n } }
  else if o = 0x0068 then { c with ope := { c.ope with unchecked := n } }
  else if o = 0x0C08 then { c with mve := { c.mve with checked := n } }
  else if o = 0x0C10 then { c with mve := { c.mve with near := n } }
  else if o = 0x0C18 then { c with mve := { c.mve with unchecked := n } }
  else if o = 0x0D08 then { c with ve := { c.ve with resCount := n } }
  else if o = 0x3408 then { c with scr := { c.scr with corrected := n } }
  else if o = 0x3410 then { c with scr := { c.scr with uncorrected := n } }
  else if 0x3720 ≤ o && o < 0x3740 then
    let k := (o - 0x3720) / 8
    { c with te := { c.te with regs := c.te.regs.write .reset k { c.te.regs.get .reset k with throttle := n } } }
  else if o = 0x3790 then { c with te := { c.te with outStall := n } }
  else if 0x0200 ≤ o && o ≤ 0x02F8 && (Ring.ofWord w).refused then c
  else c.ctlWrite o w

end Sys2Proof.Machine
end

