-- ==== Sys2Proof/Machine/Sends.lean ====
section
/-! DEFINITION. What a core sends: regulators, the outbound buffer, source reads and starts, and the cycles that no engine's time may
pass before a command has come (R42, R276 to R281, R307, R318, R349, R350). -/

namespace Sys2Proof.Machine

/-! ### Sends -/

/-- Channel end `n`. -/
def Me.endOf (m : Me) (n : Nat) : MEnd := m.ends.get .reset n

/-- Nonets of a record's header word (R301). -/
def SendKind.headLen : SendKind → Nat
  | .msg .. | .pad .. => 8
  | _ => 0

/-- Nonets that a send carries, the header word included. -/
def Send.total (s : Send) : Nat := s.kind.headLen + s.size

/-- The send is one of an ME end of class 0 or 1: it passes through the outbound buffer without waiting for room (R281). -/
def Core.passes (c : Core) (k : SendKind) : Bool :=
  match k with
  | .msg e .. => decide ((c.me.endOf e).cls ≤ 1)
  | .pad e .. => decide ((c.me.endOf e).cls ≤ 1)
  | .comb e => decide ((c.me.endOf e).cls ≤ 1)
  | _ => false

/-- The outbound buffer has room for a send that would start (R281); one larger than the buffer starts when it is empty. -/
def Core.hasRoom (c : Core) (s : Send) : Bool :=
  c.passes s.kind || decide (c.te.fill + s.total ≤ 16384) || (decide (16384 < s.total) && c.te.fill == 0)

/-- Work of the step that no outside traffic times goes on in cycle `t` (R424, R428). -/
def Core.busy (c : Core) (t : Nat) : Core := { c with busyTo := max c.busyTo (t + 1) }

/-- Complete the instruction of a number in cycle `t`, as outside traffic has it. -/
def Core.completeOut (c : Core) (tid t : Nat) : Core :=
  { c with infl := c.infl.map fun i => if i.tid = tid then { i with due := some t } else i }

/-- Complete the instruction of a number in cycle `t`. -/
def Core.complete (c : Core) (tid t : Nat) : Core := (c.completeOut tid t).busy t

/-- The header word of a record: never poisoned (R301, R307). -/
def SendKind.header : SendKind → List PNt
  | .msg _ tag len seq _ => wordNts (msgHeader tag seq len) false
  | .pad _ len _ => wordNts (padHeader (len - 1)) false
  | _ => []

/-- The static flow of a send: that of its end, where its class is 1 or 2, or that of its multicast set (R349). -/
def Core.flowOf (c : Core) (k : SendKind) : Option Nat :=
  let ofEnd (n : Nat) : Option Nat := if (c.me.endOf n).cls = 1 || (c.me.endOf n).cls = 2 then some n else none
  match k with
  | .msg n .. => ofEnd n
  | .pad n .. => ofEnd n
  | .comb n => ofEnd n
  | .mcast m _ => some (32 + m)
  | _ => none

/-- The first cycle at or after `t` whose frame position is a start position of a send's flow (R350). -/
def Core.flowStart (c : Core) (env : Env) (k : SendKind) (t : Nat) : Nat :=
  match c.flowOf k with
  | none => t
  | some f =>
    let ps := (env.starts.filter fun e => e.1 == f).map (·.2)
    match (List.range env.frame).find? fun n => ps.contains ((t + n) % env.frame) with
    | some n => t + n
    | none => t

/-- The cycle in which the first waiting send starts, the buffer's room apart (R280, R307, R350). -/
def Core.sendDue (c : Core) (env : Env) : Option Nat :=
  match c.te.sends with
  | [] => none
  | d :: _ => some (c.flowStart env d.kind (max d.ready c.te.sendFree))

/-- Nonets of source access `k` of a send (R280). -/
def Send.part (s : Send) (k : Nat) : Nat := min 144 (s.size - 144 * k)

/-- The send of a number whose source is being read. -/
def Te.reading (te : Te) (tid : Nat) : Option Send := (te.outb ++ te.net ++ te.lightq ++ te.landing).find? fun s => s.tid == tid

/-- A source access of the present cycle finds no room: the send is larger than the buffer (R281). -/
def Core.sourceBlocked (c : Core) : Bool :=
  c.pend.any fun p => p.due == c.now && (match p.wr with
    | .source k => (match c.te.reading p.by_.tid with
        | some s => !(c.passes s.kind) && decide (16384 < s.total) && decide (16384 < c.te.fill + s.part k)
        | none => false)
    | _ => false)

/-- Change a send wherever it is. -/
def Te.mapSend (te : Te) (tid : Nat) (f : Send → Send) : Te :=
  let g (s : Send) : Send := if s.tid = tid then f s else s
  { te with outb := te.outb.map g, net := te.net.map g, lightq := te.lightq.map g, landing := te.landing.map g }

/-- Source access `k` of a send in cycle `t` (R226, R280): its nonets enter the outbound buffer, and the next access follows; a message, a
contribution or a multicast completes with the last (R282, R306). -/
def Cx.sourceRead (x : Cx) (i : Iss) (t k : Nat) : Cx :=
  match x.c.te.reading i.tid with
  | none => x
  | some s =>
    let n := s.part k
    let ws := wordsOf (s.src + 144 * k) n
    let (c, effs) := x.c.staticRead i ws ws
    let l := c.scr.nts (s.src + 144 * k) n
    let te := c.te.mapSend s.tid fun s => { s with data := s.data ++ l }
    let c := { c with te := if c.passes s.kind then te else { te with fill := te.fill + n } }
    let c := if 144 * (k + 1) < s.size then c.pendWr i (t + 1) (.source (k + 1))
      else match s.kind with
        | .store _ | .light _ => c
        | _ => c.complete s.tid t
    ({ x with c := c } : Cx).emit effs

/-- The cycle that a pad record takes by itself: the message after it starts no earlier than the next (R302). -/
def SendKind.padCycle (k : SendKind) : Nat := match k with | .pad .. => 1 | _ => 0

/-- A send starts in cycle `s` (R280, R281): it is in the outbound buffer, or passes through it, and its source is read from then on. -/
def Core.startSend (c : Core) (s : Nat) (d : Send) : Core :=
  let h := d.kind.header
  let d := { d with data := h, start := s }
  let pass := c.passes d.kind || d.total == 0
  let d := if pass then { d with gone := d.total } else d
  let te := { c.te with sendFree := max c.te.sendFree (s + max d.kind.padCycle (cdiv d.size 144)) }
  let te := match d.kind with
    | .light _ => { te with lightq := te.lightq ++ [d] }
    | _ => if pass then { te with net := te.net ++ [d] } else { te with outb := te.outb ++ [d], fill := te.fill + h.length }
  let c := { c with te := te }
  if d.size = 0 then c.complete d.tid s
  else c.pendWr ⟨s, d.tid, d.eng, d.ctx, d.pc⟩ s (.source 0)

/-! ### The regulators (R276 to R278) -/

/-- Regulator `k`. -/
def Te.reg (te : Te) (k : Nat) : Regulator := te.regs.get .reset k

/-- The nonets of the next request of a send in the outbound buffer; 0 while they have not been read. -/
def Send.ask (s : Send) : Nat :=
  let n := min 64 (s.total - s.gone)
  if s.data.length < s.gone + n then 0 else n

/-- The request of class `k` that leaves next, in issue order: its instruction number and its size; 0 while its data has not
been read. -/
def Te.nextReq (te : Te) (k : Nat) : Option (Nat × Nat) :=
  let a := (te.sends.filter fun s => s.cls == some k).map (fun s => (s.tid, 0)) ++
    (te.outb.filter fun s => s.cls == some k).map fun s => (s.tid, s.ask)
  let b := te.dq.entries.filterMap fun q =>
    if q.2.st == 1 && q.2.cls == k && decide (64 * q.2.sent < q.2.size) then
      some (q.2.tid, min 64 (q.2.size - 64 * q.2.sent))
    else none
  (a ++ b).foldl (fun m r => match m with | some x => if r.1 < x.1 then some r else some x | none => some r) none

/-- Tokens of `n` cycles are added, up to DEPTH; cycles in which a ready request lacks its tokens are counted (R277, R278). -/
def Regulator.gain (r : Regulator) (n need : Nat) : Regulator :=
  let held := if need = 0 || 64 * need ≤ r.tokens64 then 0
    else if r.rate = 0 then n else min n (cdiv (64 * need - r.tokens64) r.rate)
  { r with tokens64 := min (64 * r.depth) (r.tokens64 + n * r.rate), throttle := (r.throttle + held) % 2 ^ 36 }

/-- What class `k` has waiting: nonets of its next request; 0 where none is ready. -/
def Te.needOf (te : Te) (k : Nat) : Nat := match te.nextReq k with | some r => r.2 | none => 0

/-- The queue entries of one context (R88, R288). -/
def Engine.share (g : Engine) : Nat := if 1 < g.nctx then 128 else 512

/-- A context of an engine has room for a group of its stream, of which there is more to come (R88). -/
def Engine.hungry (g : Engine) : Bool :=
  g.ctxs.entries.any fun k => decide (k.2.supplied < k.2.total) && decide (k.2.queue.length + 128 ≤ g.share)

/-- What class `k` of a core has waiting: of class 3, the feeder's read of one group (R88, R276). -/
def Core.needOf (c : Core) (k : Nat) : Nat :=
  if k = 3 then (if c.feeder && c.engs.entries.any (fun e => e.2.hungry) then 1024 else 0) else c.te.needOf k

/-- The regulators of a core after `n` further cycles. -/
def Core.gain (c : Core) (n : Nat) : Core :=
  if n = 0 then c
  else { c with te := { c.te with regs := (List.range 4).foldl (fun m k => m.write .reset k ((m.get .reset k).gain n (c.needOf k))) c.te.regs } }

/-- `n` nonets of a send leave the outbound buffer; a send whose last nonet has left is on its way, but for a multicast to no core, which
is over (R283). -/
def Te.leave (te : Te) (tid n : Nat) : Te :=
  let outb := te.outb.map fun s => if s.tid = tid then { s with gone := s.gone + n } else s
  let noTarget (s : Send) : Bool := match s.kind with | .mcast .. => s.dests.isEmpty | _ => false
  { te with
    outb := outb.filter fun s => decide (s.gone < s.total)
    net := te.net ++ outb.filter fun s => decide (s.total ≤ s.gone) && !(noTarget s)
    fill := te.fill - n }

/-- Up to `n` nonets of sends that no regulator holds leave the outbound buffer (R281). -/
def Te.leaveFree (te : Te) : Nat → List Send → Te
  | _, [] => te
  | n, s :: ss =>
    if s.cls.isNone then
      let k := min n (s.data.length - s.gone)
      if k = 0 then te else Te.leaveFree (te.leave s.tid k) (n - k) ss
    else Te.leaveFree te n ss

/-- REGULATOR_RELEASE (R278): the next request of a class leaves if TOKENS is at least its size. Class 3 is released with the
feeder's read. -/
def Core.regulatorRelease (c : Core) (k : Nat) : Core :=
  match c.te.nextReq k with
  | none => c
  | some (tid, n) =>
    let r := c.te.reg k
    if n = 0 || r.tokens64 < 64 * n then c
    else
      let te := { c.te with regs := c.te.regs.write .reset k { r with tokens64 := r.tokens64 - 64 * n } }
      let te := if te.outb.any fun s => s.tid == tid then te.leave tid n
        else { te with dq := te.dq.mapVals fun _ q => if q.tid = tid && q.st = 1 then { q with sent := q.sent + 1 } else q }
      { c with te := te }

/-! ### Heads in turn (R42, R52, R318, R437) -/

/-- The engine may issue: it is running or waiting, and its stream has not ended. -/
def Engine.active (g : Engine) : Bool := (g.st == .running || g.st == .waiting) && !g.haltPend

/-- The instruction at the head waits for the commit of the step before it: the SE's after a STEP, and the first of a step that has not begun
(R100, R437). -/
def Engine.boundaryHeld (g : Engine) (env : Env) (eng : Nat) : Bool :=
  (eng == 0 && g.boundary) || (env.marked eng g.cur g.here.pc && decide (env.stepNo < env.markStep eng g.cur g.here.begun))

/-- The credit that the message of `len` words at the head of a send end lacks nothing of (R302). -/
def MEnd.need (e : MEnd) (len : Nat) : Nat := if e.cap < e.pos + len + 1 then e.cap - e.pos else len + 1

/-- What the ME instruction `w` waits for under R318 has come, or it fails a check that it then makes: the credit of its send, or a receivable
message at an end of its mask, unless it polls (R308). -/
def Core.meMet (c : Core) (w : Word) : Bool :=
  let e := c.me.endOf (bits w 44 40)
  match bits w 71 63 with
  | 0x141 => e.role != 1 || decide (e.cap < bits w 33 24 + 1) || decide (e.need (bits w 33 24) ≤ e.credit)
  | 0x142 => bit w 11 || (setBitsOf 32 (bits w 44 13)).any fun n => (c.me.endOf n).role != 2 || (c.me.endOf n).headMsg.isSome
  | 0x144 => e.role != 3 || e.credit != 0
  | _ => true

/-- The head of context `k` of an engine goes on being held. -/
def Core.stillHeld (c : Core) (eng k : Nat) : Bool :=
  let g := c.eng eng
  match (g.ctx k).held, (g.ctx k).head with
  | some _, some w => if (g.ctx k).waited then !(c.meMet w) else !(c.coup.waitOk eng (waitOf w).1 (waitOf w).2)
  | _, _ => false

/-- Engine `eng` has an instruction at the head of its queue that is to be looked at in the present cycle, or can issue in it (R42). -/
def Core.inTurn (c : Core) (env : Env) (eng : Nat) : Bool :=
  let g := c.eng eng
  g.active && g.here.head.isSome && decide (g.headFree ≤ c.now) && !(g.boundaryHeld env eng) && !(c.stillHeld eng g.cur)

/-- An engine of a lower number has an instruction in turn in the present cycle: it goes first (R53, R152). -/
def Core.lowerFirst (c : Core) (env : Env) (eng : Nat) : Bool := (List.range eng).any (c.inTurn env)

/-- Time cannot go on past the present cycle: an instruction is in turn, a send starts or stalls (R42, R280, R281). -/
def Core.blocked (c : Core) (env : Env) : Bool :=
  (List.range 6).any (c.inTurn env) ||
    (match c.sendDue env with | some d => decide (d ≤ c.now) | none => false) || c.sourceBlocked

/-- The cycle of the next near read of a core that is on its way (R251). -/
def Core.nearGets (c : Core) : Option Nat :=
  c.mve.streams.foldl (fun m s => minDue m s.reqDue)
    (c.pend.foldl (fun m p => match p.wr with | .nearGet .. => minDue m (some p.due) | _ => m) none)

/-- The cycle of the next near write of a core that is on its way (R251). -/
def Core.nearPuts (c : Core) : Option Nat :=
  c.pend.foldl (fun m p => match p.wr with | .nearPut .. => minDue m (some p.due) | _ => m) none

/-- The near read of a core that a write of another core in its cycle comes after: reads find what stood before the writes of their cycle. Of two
cores that both read and write in one cycle, the one of the lower number goes first (`low`). DESIGN CHOICE (log 146). -/
def Core.getsFirst (c : Core) (low : Bool) : Option Nat :=
  match c.nearGets, c.nearPuts with
  | some d, some e => if decide (e ≤ d) && !low then none else some d
  | d, _ => d

/-- A cycle has come. -/
def dueBy (d : Option Nat) (t : Nat) : Bool := match d with | some n => decide (n ≤ t) | none => false

/-- A near access of the present cycle waits for another core of the program under the same stack: every near access takes effect at its cycle, whatever
the order in which commands come (R12). -/
def Core.nearHeld (c : Core) (env : Env) : Bool :=
  let put := dueBy c.nearPuts c.now
  ((put || dueBy c.nearGets c.now) && (match env.nearTo with | some n => decide (n < c.now) | none => false)) ||
    (put && dueBy env.nearGets c.now)

/-- What lands in the present cycle is still being read in the core that sends it (R304). -/
def Core.awaits (c : Core) : Bool := c.pend.any fun p => decide (p.due ≤ c.now) && (match p.wr with | .await .. => true | _ => false)

/-- The core is ahead of another on which its present cycle depends. -/
def Core.ahead (c : Core) (env : Env) : Bool := c.nearHeld env || c.awaits

/-- Time does not go on past the present cycle. -/
def Core.stands (c : Core) (env : Env) : Bool := c.blocked env || c.ahead env

/-- A cycle after the present one in which an engine may come into turn, or a send to its start. -/
def Core.points (c : Core) (env : Env) : List Nat :=
  ((match c.sendDue env with | some d => [d] | none => []) ++ c.engs.entries.map fun e => e.2.headFree).filter fun d => decide (c.now < d)

end Sys2Proof.Machine
end

