-- ==== Sys2Proof/Machine/Tables.lean ====
section
/-! DEFINITION. The table functions of the vector engine (R184 to R186): the reduction of the argument, the interpolation
over the tables of Config, and the special inputs. -/

namespace Sys2Proof.Machine

/-- ⌊x⌋ and the fraction x − ⌊x⌋, of the finite value (−1)^neg × m × 2^e. -/
def floorFrac (neg : Bool) (m : Nat) (e : Int) : Int × Fl :=
  if 0 ≤ e then ((if neg then -((m * 2 ^ e.toNat : Nat) : Int) else ((m * 2 ^ e.toNat : Nat) : Int)), .zero)
  else
    let k := (-e).toNat
    let v : Int := if neg then -(m : Int) else m
    let q := v / (2 ^ k : Nat)
    (q, .fin false (v - q * (2 ^ k : Nat)).toNat e)

/-- Index and fraction of a reduced argument `y` in [0, 2^k × entries): multiply by `num` / `den` entries per unit. The
fraction is a numerator over `den`. -/
def tabIndex (num : Nat) (den : Nat) (y : Fl) : Nat × Fl :=
  match y with
  | .fin _ m e =>
    let a := m * num
    if 0 ≤ e then
      let t := a * 2 ^ e.toNat
      (t / den, .fin false (t % den) 0)
    else
      let k := (-e).toNat
      let t := a / (den * 2 ^ k)
      (t, .fin false (a - t * (den * 2 ^ k)) e)
  | _ => (0, .zero)

/-- Divide a finite value by `d`, with enough further bits and a sticky bit for one correct rounding to N36. -/
def Fl.divNat (x : Fl) (d : Nat) : Fl :=
  match x with
  | .fin s m e =>
    if d ≤ 1 then x
    else
      let q := m * 2 ^ 64 / d
      let st := if m * 2 ^ 64 % d = 0 then 0 else 1
      .fin s (2 * q + st) (e - 65)
  | x => x

/-- T[i] + (T[i + 1] − T[i]) × φ, with φ = `phi` / `den` (R185). DESIGN CHOICE (log 156): at i = 1,023 the rule names an entry beyond the 1,024 held, which is
taken to be a further entry of its own. -/
def interpolate (func : Nat) (der : Bool) (i : Nat) (phi : Fl) (den : Nat) : Fl :=
  let t0 := decodeFl .n36 (Config.tabEntry func der i)
  let t1 := decodeFl .n36 (Config.tabEntry func der (i + 1))
  let d := (t1.add t0.neg).1
  (((t0.mul (.fin false den 0)).1.add (d.mul phi).1).1).divNat den

/-- log₂ e with 128 bits of fraction, so that x × log₂ e is rounded once, to N36. DESIGN CHOICE (log 118): R184 does not say how exactly the
hardware holds log₂ e. -/
def log2e : Fl := .fin false 490923683258796565746369346286093237521 (-128)

/-- Clamp the exponent of a result whose overflow or underflow is already certain. -/
def clampExp (n : Int) : Int := min (max n (-8192)) 8192

/-- 2^x from the tables of function 1 (R184). An argument beyond every exponent, an infinity included, gives a value that overflows or
underflows as it is rounded (R186). -/
def tabExp2 (der : Bool) (x : Fl) : Fl :=
  match x with
  | .fin s m e =>
    if 16 < (Nat.log2 m : Int) + e && m != 0 then .fin false 1 (if s then -8192 else 8192)
    else
      let (n, f) := floorFrac s m e
      let (i, phi) := tabIndex 1024 1 f
      (interpolate 1 der i phi 1).scale (clampExp n)
  | .inf s => .fin false 1 (if s then -8192 else 8192)
  | .nan => .nan

/-- What a table function gives: the exact result before its rounding to N36, and the flags of its special inputs. Function 0 goes on as
function 1; its derivative is e^x itself, from function 1's value table. DEDUCED (log 117): the derivative table of function 1 is that of 2^x. -/
def tabValue (func : Nat) (der : Bool) (x : Fl) : Fl × NumFlags :=
  let open_ := (decodeFl .n36 (Config.tabOpen func der (toFloat .n36 .near false x).1), nfNone)
  match x with
  | .nan => (.nan, nfNan)
  | .inf s =>
    if func = 2 && s || func = 4 && s then (.nan, nfInv)
    else if func < 5 then open_
    else if der then (if func ≤ 6 || s then .zero else .fin false 1 0, nfNone)
    else if s then (if func = 6 then .fin true 1 0 else .zero, nfNone)
    else (if func ≤ 6 then .fin false 1 0 else x, nfNone)
  | .fin s m e =>
    if func = 0 then (tabExp2 false (ofN36 (toN36 .near (x.mul log2e).1).1), nfNone)
    else if func = 1 then (tabExp2 der x, nfNone)
    else if func ≤ 4 then
      if m = 0 then
        if der then open_
        else if func = 2 then (.inf true, nfOvf)
        else if func = 3 then (.inf s, nfOvf)
        else if s then open_ else (.inf false, nfOvf)
      else if s && func ≠ 3 then (.nan, nfInv)
      else
        let E := x.exponent
        let sig := (Fl.fin false m (e - E))
        let y := (sig.add (.fin true 1 0)).1
        if func = 2 then
          let (i, phi) := tabIndex 1024 1 y
          let t := interpolate 2 der i phi 1
          if der then (t.scale (-E), nfNone) else ((t.add (.fin (decide (E < 0)) E.natAbs 0)).1, nfNone)
        else if func = 3 then
          let (i, phi) := tabIndex 1024 1 y
          let t := interpolate 3 der i phi 1
          if der then (t.scale (-2 * E), nfNone) else ((if s then t.neg else t).scale (-E), nfNone)
        else
          let k := E / 2
          let y := ((Fl.fin false m (e - 2 * k)).add (.fin true 1 0)).1
          let (i, phi) := tabIndex 1024 3 y
          let t := interpolate 4 der i phi 3
          (t.scale (if der then -3 * k else -k), nfNone)
    else
      let out := !(x.lt (.fin false 16 0)) || x.lt (.fin true 16 0)
      if out then
        if der then (if func ≤ 6 || s then .zero else .fin false 1 0, nfNone)
        else if s then (if func = 6 then .fin true 1 0 else .zero, nfNone)
        else (if func ≤ 6 then .fin false 1 0 else x, nfNone)
      else
        let (i, phi) := tabIndex 32 1 (x.add (.fin false 16 0)).1
        (interpolate func der i phi 1, nfNone)

/-- The table entry T[i] that 2^x reads, as (function, derivative, i); T[i + 1] goes with it. -/
def exp2Entry (der : Bool) (x : Fl) : Option (Nat × Bool × Nat) :=
  match x with
  | .fin s m e => if 16 < (Nat.log2 m : Int) + e && m != 0 then none else some (1, der, (tabIndex 1024 1 (floorFrac s m e).2).1)
  | _ => none

/-- The table entry T[i] that a function reads for an input (R184, R185), as `tabValue` does; `none` where it reads none. -/
def tabEntryOf (func : Nat) (der : Bool) (x : Fl) : Option (Nat × Bool × Nat) :=
  match x with
  | .fin s m e =>
    if func = 0 then exp2Entry false (ofN36 (toN36 .near (x.mul log2e).1).1)
    else if func = 1 then exp2Entry der x
    else if func ≤ 4 then
      if m = 0 || (s && func != 3) then none
      else
        let k := if func = 4 then 2 * (x.exponent / 2) else x.exponent
        some (func, der, (tabIndex 1024 (if func = 4 then 3 else 1) ((Fl.fin false m (e - k)).add (.fin true 1 0)).1).1)
    else if !(x.lt (.fin false 16 0)) || x.lt (.fin true 16 0) then none
    else some (func, der, (tabIndex 32 1 (x.add (.fin false 16 0)).1).1)
  | _ => none

/-- The result of VTAB before its rounding to FMT: formed in N36 nearest-even (R185). DESIGN CHOICE (log 157): R186 does not say whether a NaN formed here
sets NAN_IN as it is rounded to FMT; it sets INV alone. -/
def tabResult (func : Nat) (der : Bool) (x : Fl) : Fl × NumFlags :=
  let r := tabValue func der x
  let v := toN36 .near r.1
  (ofN36 v.1, r.2 ||| v.2)

end Sys2Proof.Machine
end

