-- ==== Sys2Proof/Machine/VeCore.lean ====
section
/-! DEFINITION. The groups of a vector engine instruction (R162 to R170, R174 to R182, R187, R191, R193, R194): group g is read in
i₀ + g and written in i₀ + L − 1 + g (R164). -/

namespace Sys2Proof.Machine

/-! ### Active elements and values -/

/-- Lanes of a format (R162). -/
def lanesOf (f : Fmt) : Nat := 144 / f.size

/-- Whether an element is active, and whether its mask bit is poisoned (R163). -/
def Ve.active (v : Ve) (cfg : VCfg) (e : Nat) : Option Bool :=
  if cfg.len ≤ e || cfg.empty then none
  else if !cfg.msk then some false
  else
    let b := v.maskBit cfg.mslot e
    if b.1 || b.2 then some b.2 else none

/-- The active elements of group `g` of `W` elements, each with its mask poison. -/
def Ve.activeEls (v : Ve) (cfg : VCfg) (W g : Nat) : List (Nat × Bool) :=
  (List.range W).filterMap fun k => (v.active cfg (W * g + k)).map fun p => (W * g + k, p)

/-- The value an instruction forms for an element, before the conversion it makes as it is written. -/
structure VRes where
  e : Nat
  x : Fl
  p : Bool
  f : NumFlags
  deriving DecidableEq, Repr

/-- The rounding of element `e` (R34, R35). -/
def VWork.rnd (w : VWork) (key : RngKey) (e : Nat) : Rnd := rndOf w.cfg.rnd key e w.ctr

/-- Convert results as they are written, in RND, with a scale on store (R27, R37, R38). -/
def VWork.convert (w : VWork) (key : RngKey) (scale : Int) (l : List VRes) : List (Nat × Nat × Bool × NumFlags) :=
  l.map fun r =>
    let k := storeFl w.src w.out scale (w.rnd key r.e) r.x
    (r.e, k.1, r.p, r.f ||| k.2)

/-- Writes of slot elements in cycle `due`: the encodings in format `out`, and the flags of the cycle (R166, R194). -/
def slotWrites (i : Iss) (slot : Nat) (out : Fmt) (due : Nat) (l : List (Nat × Nat × Bool × NumFlags)) : List Pend :=
  if l.isEmpty then []
  else
    (joinNts (l.map fun r => (slotAddr slot r.1 out.size, ntsOf out.size r.2.1 r.2.2.1))).map
        (fun r => (⟨due, i, .cache r.1 r.2⟩ : Pend)) ++
      [⟨due, i, .flags (stFlags l)⟩]

/-- NAN_IN for a list of operands (R39). -/
def nanIn (l : List Fl) : NumFlags := if l.any Fl.isNan then nfNan else nfNone

/-- Subtraction. -/
def Fl.sub (a b : Fl) : Fl × NumFlags := a.add b.neg

/-- A comparison (R177): 0 equal, 1 not equal, 2 less than, 3 less than or equal. -/
def flCmp (cond : Nat) (a b : Fl) : Bool :=
  match cond with
  | 0 => a.eqv b
  | 1 => !(a.eqv b)
  | 2 => a.lt b
  | _ => a.lt b || a.eqv b

/-- The element of B for element `e` (R177). -/
def VWork.bIndex (w : VWork) (e : Nat) : Nat := if w.bseg then e / w.cfg.seg else e

/-- Element `e` of slot A in FMT. -/
def VWork.elA (w : VWork) (v : Ve) (e : Nat) : OpEl := v.elem w.a w.cfg.fmt e

/-- The element of slot B for element `e`. -/
def VWork.elB (w : VWork) (v : Ve) (e : Nat) : OpEl := v.elem w.b w.cfg.fmt (w.bIndex e)

/-- An operation of A and B: the value, its poison, and its flags. -/
def VWork.bin (w : VWork) (v : Ve) (e : Nat) (f : Fl → Fl → Fl × NumFlags) : OpEl × NumFlags :=
  let p := w.elA v e
  let q := w.elB v e
  let r := f p.x q.x
  (⟨r.1, p.p || q.p⟩, r.2 ||| nanIn [p.x, q.x])

/-- What an elementwise operation forms for element `e` (R177, R178, R180, R184). -/
def VWork.value (w : VWork) (v : Ve) (e : Nat) : OpEl × NumFlags :=
  match w.op with
  | .add => w.bin v e Fl.add
  | .sub => w.bin v e Fl.sub
  | .mul => w.bin v e Fl.mul
  | .max => w.bin v e fun a b => (a.max b, nfNone)
  | .min => w.bin v e fun a b => (a.min b, nfNone)
  | .fma =>
    let p := w.elA v e
    let q := w.elB v e
    let r := v.elem w.c w.cfg.fmt e
    let m := p.x.mul q.x
    let s := m.1.add r.x
    (⟨s.1, p.p || q.p || r.p⟩, m.2 ||| s.2 ||| nanIn [p.x, q.x, r.x])
  | .sel =>
    let m := v.maskBit w.c e
    let o := if m.1 || m.2 then w.elA v e else w.elB v e
    (⟨o.x, o.p || m.2⟩, nanIn [o.x])
  | .mov =>
    let o := if w.bseg then w.elB v e else w.elA v e
    (o, nanIn [o.x])
  | .tab func der =>
    let o := w.elA v e
    let r := tabResult func der o.x
    (⟨r.1, o.p⟩, r.2)
  | .supd ex neg =>
    let p := v.elem w.a .n36 e
    let q := v.elem w.b .n18 e
    let t := q.x.scale ex
    let r := p.x.add (if neg then t.neg else t)
    (⟨r.1, p.p || q.p⟩, r.2 ||| nanIn [p.x, q.x])
  | _ => (w.elA v e, nfNone)

/-- The scale on store of an operation that writes slots (R178). -/
def VOp.scale : VOp → Int
  | .cvt sc => sc
  | _ => 0

/-! ### Reductions (R179) -/

/-- One further element of a sum, rounded to N36 nearest-even. -/
def sumStep (s : Fl × NumFlags) (t : Fl) : Fl × NumFlags :=
  let r := s.1.add t
  let k := toN36 .near r.1
  (ofN36 k.1, s.2 ||| r.2 ||| k.2)

/-- The term of an element in a sum (R23). -/
def redTerm (rop : Nat) (f : Fmt) (x : Fl) : Fl × NumFlags :=
  if rop = 4 then product f f x x else if rop = 5 then (x.abs, nfNone) else (x, nfNone)

/-- ROP forms a sum. -/
def ropSums (rop : Nat) : Bool := rop == 0 || rop == 4 || rop == 5

/-- The reduction of a segment's active values. A sum starts from the segment's first element, so that a segment of −0 alone gives −0.
DESIGN CHOICE (log 119): R179 does not say what it starts from. -/
def reduce (rop : Nat) (f : Fmt) (l : List Fl) : Fl × NumFlags :=
  match l with
  | [] => if ropSums rop then (.zero, nfNone) else (.nan, nfNone)
  | x :: xs =>
    let r :=
      if rop = 1 then (xs.foldl Fl.max x, nfNone)
      else if rop = 2 then (xs.foldl Fl.min x, nfNone)
      else if rop = 3 then (xs.foldl (fun m y => m.max y.abs) x.abs, nfNone)
      else xs.foldl (fun s y => let t := redTerm rop f y; sumStep (s.1, s.2 ||| t.2) t.1) (redTerm rop f x)
    (r.1, r.2 ||| nanIn (x :: xs))

/-- The segments whose last element lies in group `g` (R179). -/
def VWork.segsOf (w : VWork) (g : Nat) : List Nat :=
  (List.range (cdiv w.cfg.len w.cfg.seg)).filter fun s => (min (w.cfg.seg * (s + 1)) w.cfg.len - 1) / w.lanes == g

/-! ### The parts of a group -/

/-- A mismatch is found (R191): it is counted, and raises a remount trigger. A count past 2^36 − 1 goes on from 0. DESIGN CHOICE (log 116): R192 does not
say. -/
def Cx.mismatch (x : Cx) (i : Iss) : Cx :=
  ({ x with c := { x.c with ve := { x.c.ve with
      residueFault := false, resFail := true, resCount := (x.c.ve.resCount + 1) % 2 ^ 36 } } } : Cx).emit
    [.trig .residue i.eng i.ctx i.pc 0]

/-- The checks of an instruction's results (R191): a latent fault is found by the next operation that forms or rounds one, and a table entry of wrong parity
by the group that reads it, `reads` being the entries T[i] read; T[i + 1] goes with each. -/
def Cx.residue (x : Cx) (i : Iss) (reads : List (Nat × Bool × Nat)) : Cx :=
  let bad := reads.any fun e => x.c.ve.tabFaults.any fun f => f.1 == e.1 && f.2.1 == e.2.1 && (f.2.2 == e.2.2 || f.2.2 == e.2.2 + 1)
  if x.c.ve.residueFault || bad then x.mismatch i else x

/-- The operation forms or rounds results. -/
def VOp.rounds : VOp → Bool
  | .cmpr | .expd _ | .stat => false
  | _ => true

/-- The core-relative offset of element `e` of a pointer's handle. -/
def ptrOff (p : VPtr) (h : Handle) (e : Nat) : Nat := h.at_ (h.indexOff p.orient (p.off + e))

/-- The words a group of VLD reads (R174). -/
def Core.vldWords (c : Core) (w : VWork) (p : VPtr) (h : Handle) (g : Nat) : List Nat :=
  elWords h.fmt.size (((c.ve.activeEls w.cfg w.lanes g).filter fun e => h.has (p.off + e.1)).map fun e => ptrOff p h e.1)

/-- A group of VLD in cycle `t` (R174): read, checked against its banks (R241), and converted to FMT. DESIGN CHOICE (log 154): an element beyond the handle's
end is +0 without poison of its own (R174), and its poisoned mask bit poisons it as it does any result (R163). -/
def Cx.vldGroup (x : Cx) (key : RngKey) (i : Iss) (t : Nat) (w : VWork) (p : VPtr) (h : Handle) (g : Nat) : Cx :=
  let ws := x.c.vldWords w p h g
  if !(x.c.scr.wordsOn ws) then x.emit [.err .addressError i.eng i.ctx i.pc 0]
  else
    let (c, effs) := x.c.staticRead i ws ws
    let res := (c.ve.activeEls w.cfg w.lanes g).map fun e =>
      let o := if h.has (p.off + e.1) then c.scr.elem h (ptrOff p h e.1) else ⟨.zero, false⟩
      (⟨e.1, o.x, o.p || e.2, nfNone⟩ : VRes)
    ({ x with c := c.pendAll (slotWrites i w.d w.out (t + w.lat - 1) (w.convert key 0 res)) } : Cx).emit effs

/-- The source elements of a group, with their poison: of VST the active ones, of TBW all (R174, R176). DESIGN CHOICE (log 158): R187 does not say how statistics
take an element whose mask bit is poisoned; it is a poisoned element to them. -/
def VWork.sources (w : VWork) (v : Ve) (g : Nat) : List VRes :=
  match w.op with
  | .tbw .. => (List.range w.lanes).map fun k =>
      let o := w.elA v (w.lanes * g + k)
      ⟨w.lanes * g + k, o.x, o.p, nfNone⟩
  | _ => (v.activeEls w.cfg w.lanes g).map fun e =>
      let o := w.elA v e.1
      ⟨e.1, o.x, o.p || e.2, nfNone⟩

/-- What a group of VST or TBW writes in cycle `due`. -/
def VWork.stores (w : VWork) (key : RngKey) (i : Iss) (due : Nat) (l : List VRes) : List Pend :=
  match w.op with
  | .vst p h hn =>
    let r := w.convert key h.scale (l.filter fun r => h.has (p.off + r.e))
    if r.isEmpty then [] else [⟨due, i, .elems h.fmt.size hn (r.map fun q => (ptrOff p h q.1, q.2))⟩]
  | .tbw half row tf sc =>
    let r := w.convert key sc (l.filter fun r => decide (row + r.e / 144 ≤ 143))
    if r.isEmpty then []
    else
      (r.map fun q => (⟨due, i, .tb (20736 * b2n half + 144 * row + q.1) [⟨q.2.1, tf, q.2.2.1⟩]⟩ : Pend)) ++ [⟨due, i, .flags (stFlags r)⟩]
  | _ => []

/-- The results of a group of TQRD or RQRD, from the queue as it stands (R175). -/
def Core.queueRes (c : Core) (w : VWork) (g : Nat) : List VRes :=
  (List.range w.lanes).filterMap fun k =>
    let e := w.lanes * g + k
    match w.op with
    | .tqrd row ent =>
      if row + e / 144 ≤ 143 then
        let a := c.ope.tqMem.get .zero (20736 * ent + 144 * row + e)
        some ⟨e, ofN36 a.v, a.p, nfNone⟩
      else none
    | .rqrd ent =>
      if e ≤ 95 then
        let a := c.mve.rqMem.get .zero (96 * ent + e)
        some ⟨e, ofN36 a.v, a.p, nfNone⟩
      else none
    | _ => none

/-- The writes of a group of VCMP: D is a mask slot, whose nonets take the poison of the bits written (R166, R168, R177). -/
def VWork.compares (w : VWork) (v : Ve) (i : Iss) (due cond g : Nat) : List Pend :=
  let res := (v.activeEls w.cfg w.lanes g).map fun e =>
    let p := w.elA v e.1
    let q := w.elB v e.1
    (e.1, b2n (flCmp cond p.x q.x), p.p || q.p || e.2, nanIn [p.x, q.x])
  if res.isEmpty then []
  else
    (dedup (res.map fun r => r.1 / 9)).map (fun n =>
      let l := res.filter fun r => r.1 / 9 == n
      (⟨due, i, .cmask (64 * w.d + n) (l.foldl (fun m r => m + 2 ^ (r.1 % 9)) 0)
        (l.foldl (fun m r => m + r.2.1 * 2 ^ (r.1 % 9)) 0) (l.any fun r => r.2.2.1)⟩ : Pend)) ++
      [⟨due, i, .flags (stFlags res)⟩]

/-- The elements of a group below LEN with their M bit: number, whether it is selected, and the poison of the bit (R181, R182). -/
def VWork.bitsOf (w : VWork) (v : Ve) (g : Nat) : List (Nat × Bool × Bool) :=
  if w.cfg.empty then []
  else (List.range (min w.lanes (w.cfg.len - w.lanes * g))).map fun k =>
    let b := v.maskBit w.b (w.lanes * g + k)
    (w.lanes * g + k, b.1 || b.2, b.2)

/-- Element `e` as it is moved, with the poison `p` of its M bit: it keeps its value, and a NaN becomes canonical (R21).
DESIGN CHOICE (log 14): R39 names no move, and VCMPR and VEXPD set no NAN_IN. -/
def VWork.moved (w : VWork) (v : Ve) (e : Nat) (p : Bool) : Nat × Bool × NumFlags :=
  let o := w.elA v e
  ((toFmt w.cfg.fmt w.cfg.fmt .near o.x).1, o.p || p, nfNone)

/-- The writes of a group of VCMPR or VEXPD, and how many bits they have met then (R181, R182). DESIGN CHOICE (log 155): R182 does not say when A[k] is read;
VEXPD reads it in the cycle of the group of e. -/
def VWork.moves (w : VWork) (v : Ve) (i : Iss) (due : Nat) : List (Nat × Bool × Bool) → Nat → List Pend × Nat
  | [], n => ([], n)
  | (e, sel, p) :: r, n =>
    let (l, m) := w.moves v i due r (if sel then n + 1 else n)
    let one : List Pend :=
      match w.op with
      | .expd zf =>
        if sel then slotWrites i w.d w.out due [(e, w.moved v n p)]
        else if zf then slotWrites i w.d w.out due [(e, 0, false, nfNone)] else []
      | _ => if sel then slotWrites i w.d w.out due [(n, w.moved v e p)] else []
    (one ++ l, m)

/-- The results of the segments that end in group `g`, from the active elements gathered so far (R179). -/
def VWork.reductions (w : VWork) (key : RngKey) (i : Iss) (due rop g : Nat) (els : List (Nat × Fl × Bool)) : List Pend :=
  if w.cfg.empty then []
  else (w.segsOf g).flatMap fun s =>
    let l := els.filter fun e => e.1 / w.cfg.seg == s
    let r := reduce rop w.cfg.fmt (l.map (·.2.1))
    slotWrites i w.d w.out due (w.convert key 0 [⟨s, r.1, l.any (·.2.2), r.2⟩])

/-- The operation gathers its source elements over its groups. -/
def VWork.gathers (w : VWork) : Bool := w.sb.isSome || (match w.op with | .red _ => true | _ => false)

/-- A group's own part in cycle `t`: the core's part, and the work with what it has gathered. -/
def Cx.groupPart (x : Cx) (key : RngKey) (i : Iss) (t : Nat) (w : VWork) (g : Nat) : Cx × VWork :=
  let v := x.c.ve
  let due := t + w.lat - 1
  let put (l : List Pend) : Cx := { x with c := x.c.pendAll l }
  let w := if w.gathers then { w with els := w.els ++ (w.sources v g).map fun r => (r.e, r.x, r.p) } else w
  match w.op with
  | .vld p h => (x.vldGroup key i t w p h g, w)
  | .vst .. | .tbw .. => (put (w.stores key i due (w.sources v g)), w)
  | .tqrd .. | .rqrd .. => (put (slotWrites i w.d w.out due (w.convert key 0 (x.c.queueRes w g))), w)
  | .cmp cond => (put (w.compares v i due cond g), w)
  | .red rop => (put (w.reductions key i due rop g w.els), w)
  | .cmpr | .expd _ =>
    let b := w.bitsOf v g
    let (l, n) := w.moves v i due b w.met
    (put l, { w with met := n, mp := w.mp || b.any fun e => e.2.1 && e.2.2 })
  | .stat => (x, w)
  | _ =>
    let res := (v.activeEls w.cfg w.lanes g).map fun e =>
      let r := w.value v e.1
      (⟨e.1, r.1.x, r.1.p || e.2, r.2⟩ : VRes)
    (put (slotWrites i w.d w.out due (w.convert key w.op.scale res)), w)

/-- What follows the last group, which cycle `t` reads: the statistics in C + 1 (R187), and the count of VCMPR in C (R181). -/
def VWork.finals (w : VWork) (i : Iss) (t : Nat) : List Pend :=
  (match w.sb with
   | some b => [⟨t + w.lat, i, .stat b (w.els.map (·.2))⟩]
   | none => []) ++
  (match w.op with
   | .cmpr => [⟨t + w.lat - 1, i, .vcnt w.met w.mp⟩]
   | _ => [])

/-- The table entries that a group reads (R185): those of VTAB, for its active elements. -/
def VWork.tabReads (w : VWork) (v : Ve) (g : Nat) : List (Nat × Bool × Nat) :=
  match w.op with
  | .tab func der => (v.activeEls w.cfg w.lanes g).filterMap fun e => tabEntryOf func der (w.elA v e.1).x
  | _ => []

/-- Group `g` of a VE instruction in cycle `t` (R164); the next group follows in the next cycle. -/
def Cx.veGroup (x : Cx) (key : RngKey) (i : Iss) (t : Nat) (w : VWork) (g : Nat) : Cx :=
  let x := if w.op.rounds then x.residue i (w.tabReads x.c.ve g) else x
  let (x, w) := x.groupPart key i t w g
  { x with c := x.c.pendAll (if g + 1 < w.groups then [⟨t + 1, i, .group w (g + 1)⟩] else w.finals i t) }

end Sys2Proof.Machine
end

