-- ==== Sys2Proof/Machine/Run.lean ====
section
/-! DEFINITION. How a core advances: reads, delayed writes, drained rows, weight groups, emissions and completions take effect in
the order of their cycles, and within a cycle reads first, then the order of R57 (R55 to R59, R65 to R67, R225 to R229). -/

namespace Sys2Proof.Machine

/-- Add one element to a stats buffer (R187). -/
def Stats.add (s : Stats) (x : Fl) (p : Bool) : Stats :=
  let sat (n : Nat) : Nat := satAdd (2 ^ 36 - 1) n 1
  if p then { s with poisoned := true }
  else
    let s := { s with total := sat s.total }
    if x.isNan then { s with nans := sat s.nans }
    else if x.isInf then { s with infs := sat s.infs }
    else if x.isZero then { s with zeros := sat s.zeros }
    else
      let e := x.exponent
      let b := (min (max (e - s.base) 0) 31).toNat
      { s with
        valid := true
        maxexp := if s.valid then max s.maxexp e else e
        bins := s.bins.write 0 b (sat (s.bins.get 0 b)) }

/-- Write nonets of the operand cache; addresses wrap (R165, R166). -/
def Ve.putCache (v : Ve) (addr : Nat) : List PNt → Ve
  | [] => v
  | n :: ns => Ve.putCache { v with cache := v.cache.write ⟨0, false⟩ (addr % 131072) n } (addr + 1) ns

/-- Write the bits of a mask nonet (R168). -/
def Ve.putMask (v : Ve) (addr mask value : Nat) (p : Bool) : Ve :=
  let a := addr % 131072
  let o := v.cache.get ⟨0, false⟩ a
  let n : Nonet := (o.v &&& ~~~(BitVec.ofNat 9 mask)) ||| (BitVec.ofNat 9 value &&& BitVec.ofNat 9 mask)
  { v with cache := v.cache.write ⟨0, false⟩ a ⟨n, p⟩ }

/-- Merge a summary into a pending word (R209). -/
def GPend.merge (a b : GPend) : GPend :=
  if !a.valid then b
  else if !b.valid then a
  else
    { valid := true
      nonfin := a.nonfin || b.nonfin
      any := a.any || b.any
      top := if a.any && b.any then max a.top b.top else if a.any then a.top else b.top
      low := if a.any && b.any then min a.low b.low else if a.any then a.low else b.low }

/-! ### The combiner (R316, R317) -/

/-- The format of a queue's elements. -/
def CombQ.fmt (q : CombQ) : Fmt := if q.n36 then .n36 else .n18

/-- The elements of a contribution, as stored. -/
def CombQ.els (q : CombQ) (data : List PNt) : List (Nat × Bool) :=
  (chunks q.fmt.size data).map fun l => (ntVal l, anyPoison l)

/-- One element of a later contribution is added (R24, R316): the sum, its poison, and OVF and NAN. -/
def combAdd (f : Fmt) (a b : Nat × Bool) : (Nat × Bool) × Bool × Bool :=
  let r := (decodeFl f a.1).add (decodeFl f b.1)
  let k := toFloat f .near false r.1
  ((k.1, a.2 || b.2), k.2 &&& nfOvf != 0, r.1.isNan)

/-- A contribution is combined (R313, R316). The first of a round is stored exactly, a NaN's payload with it. DESIGN CHOICE (log 126): R21 says that
no payload is passed on, R316 that the first contribution is stored exactly. -/
def CombQ.take (q : CombQ) (src : Nat) (data : List PNt) : CombQ :=
  let els := q.els data
  let q1 :=
    if popcount 64 q.added = 0 then
      { q with sum := els, nan := q.nan || els.any fun e => (decodeFl q.fmt e.1).isNan }
    else
      let rs := List.zipWith (combAdd q.fmt) q.sum els
      { q with sum := rs.map (·.1), ovf := q.ovf || rs.any (·.2.1), nan := q.nan || rs.any (·.2.2) }
  { q1 with poison := q1.poison || els.any (·.2), added := q1.added ||| 2 ^ src }

/-- A staged contribution may be combined next: in its turn in Locked mode, in order of arrival in Free mode (R316). -/
def Me.mayCombine (m : Me) (free : Bool) (k : Contrib) : Bool :=
  let q := m.comb.get .reset k.q
  if free then
    !(m.staging.any fun j => j.q == k.q && (decide (j.at_ < k.at_) || (j.at_ == k.at_ && decide (j.src < k.src))))
  else popcount 64 q.added == k.src

/-- The contribution the combiner takes next: the earliest arrival, then the lowest queue (R316). -/
def Me.nextContrib (m : Me) (free : Bool) : Option Contrib :=
  (m.staging.filter (m.mayCombine free)).foldl (fun b k => match b with
    | some j => if k.at_ < j.at_ || (k.at_ = j.at_ && k.q < j.q) then some k else some j
    | none => some k) none

/-- What an operation does is part of its instruction's completion, or of a landing (R424): a drain's comparisons and what a combiner ends are not. -/
def Wr.lasts : Wr → Bool
  | .check .. | .combDone _ => true
  | _ => false

/-- The cycle in which the combiner ends the contribution that it takes next: it starts with it in the first cycle at or after its arrival in which
it is free (R316). -/
def Me.combDue (m : Me) (free : Bool) : Option Nat :=
  match m.nextContrib free with
  | some k => some (max k.at_ m.combFree + cdiv (8 * ((m.comb.get .reset k.q).size + 1)) 144 - 1)
  | none => none

/-- The combiner ends a contribution in cycle `d`; in the cycle after the last of a round the queue becomes Complete and its counter is
incremented (R316). -/
def Cx.combineAt (x : Cx) (free : Bool) (d : Nat) : Cx :=
  match x.c.me.nextContrib free with
  | none => x
  | some k =>
    if dueBy (x.c.me.combDue free) d then
      let m := x.c.me
      let q := (m.comb.get .reset k.q).take k.src k.data
      let c := { x.c with me := { m with
        staging := m.staging.filter fun j => !(j.q == k.q && j.src == k.src)
        combFree := d + 1
        comb := m.comb.put k.q q } }
      { x with c := if popcount 64 q.added == q.count + 1 then c.pendWr ⟨d + 1, c.nextTid, 5, 0, 0⟩ (d + 1) (.combDone k.q) else c }
    else x

/-! ### Static accesses of a cycle (R225 to R228) -/

/-- The static accesses that an operation makes in its cycle. -/
def Core.accesses (c : Core) (p : Pend) : List Access :=
  let w (l : List Nat) : List Access := if l.isEmpty then [] else [⟨[], l⟩]
  let r (port : Nat) (l : List Nat) : List Access := if l.isEmpty then [] else [⟨[port], l⟩]
  match p.wr with
  | .ld _ off => r 3 [off / 8]
  | .maskWords q0 q1 => r 3 [q0, q1]
  | .preRow h start m row => if row < m then [⟨preloadPorts h.fmt.size, preWords h (start + row)⟩] else []
  | .chunk _ h _ n soff k => r 2 (chunkWords h n soff k fun _ => true)
  | .pair v k cyc _ => v.accs k cyc
  | .group v g => match v.op with | .vld q h => r 3 (c.vldWords v q h g) | _ => []
  | .move src n _ => r 2 (wordsOf src n)
  | .gather _ src n => r 2 (wordsOf src n)
  | .source k => match c.te.reading p.by_.tid with
    | some s => r 2 (wordsOf (s.src + 144 * k) (s.part k))
    | none => []
  | .scr off d => w (wordsOf off d.length)
  | .land _ off d => w (wordsOf off d.length)
  | .elems n _ l => w (elWords n (l.map (·.1)))
  | _ => []

/-- Put an operation into its place: in order of issue, and what one instruction does in the order in which it was begun. -/
def insertPend (p : Pend) : List Pend → List Pend
  | [] => [p]
  | q :: r => if p.by_.tid < q.by_.tid then p :: q :: r else q :: insertPend p r

/-- The operations of a cycle in order of issue (R66). -/
def issueOrder (l : List Pend) : List Pend := l.foldl (fun m p => insertPend p m) []

/-- The first operation that conflicts with itself or with one before it (R228). -/
def clash : List Access → List (Pend × List Access) → Option Pend
  | _, [] => none
  | seen, (p, a) :: r => if selfConflict a || meetsAny seen a then some p else clash (seen ++ a) r

/-- The operations whose accesses are made: where some conflict, those that take part in no conflict (R228). -/
def peaceful (l : List (Pend × List Access)) : List Pend :=
  (l.zipIdx.filter fun e => !(selfConflict e.1.2) && !(l.zipIdx.any fun f => f.2 != e.2 && meetsAny e.1.2 f.1.2)).map (·.1.1)

/-- The static accesses of a cycle are settled (R228): the conflict is the error of the later-issued instruction. DESIGN CHOICE (log 121):
the spec does not say to which of the two it belongs. -/
def Cx.settle (x : Cx) (l : List Pend) : Cx × List Pend :=
  let a := l.map fun p => (p, x.c.accesses p)
  match clash [] a with
  | none => (x, l)
  | some p => (x.emit [.err .scratchConflict p.by_.eng p.by_.ctx p.by_.pc 0], peaceful a)

/-! ### Reads of a cycle -/

/-- The word of an LD is read in cycle `t` (R97). -/
def Cx.ldRead (x : Cx) (i : Iss) (t d off : Nat) : Cx :=
  let (c, effs) := x.c.staticRead i [off / 8] [off / 8]
  let cell := c.scr.cell (off / 8)
  ({ x with c := c.pendWr i (t + 5) (.sreg d ⟨cell.v, cell.p⟩) } : Cx).emit effs

/-- A static read of a transfer of the TE in its cycle (R226, R236, R238). -/
def Cx.teRead (x : Cx) (i : Iss) (off n : Nat) : Cx × List PNt :=
  let ws := wordsOf off n
  let (c, effs) := x.c.staticRead i ws ws
  (({ x with c := c } : Cx).emit effs, c.scr.nts off n)

/-- A word of a decoupling queue is checked as it is read (R236, R270): corrected, or poisoned with a trigger; upset words are counted. -/
def Cx.queueRead (x : Cx) (i : Iss) (q k : Nat) : Cx × List PNt :=
  let d := x.c.te.dq.get .reset q
  let n := min 144 (d.size - 144 * k)
  let ws := wordsOf (144 * k) n
  let fixed := ws.filter fun w => d.upset.get 0 w == 1
  let bad := ws.filter fun w => decide (2 ≤ d.upset.get 0 w)
  let l := (List.range n).map fun e =>
    let v := d.data.get ⟨0, false⟩ (144 * k + e)
    ({ v with p := v.p || bad.contains ((144 * k + e) / 8) } : PNt)
  let scr := { x.c.scr with
    ue := x.c.scr.ue || !bad.isEmpty
    corrected := (x.c.scr.corrected + fixed.length) % 2 ^ 36
    uncorrected := (x.c.scr.uncorrected + bad.length) % 2 ^ 36 }
  let d := { d with upset := d.upset.keep fun w => !(ws.contains w) }
  (({ x with c := { x.c with scr := scr, te := { x.c.te with dq := x.c.te.dq.put q d } } } : Cx).emit
    (fixed.map (fun _ => Eff.event 0x0104 i.eng i.ctx i.pc q) ++
      (if bad.isEmpty then [] else [.count 6 bad.length, .trig .uncorrectable i.eng i.ctx i.pc q])), l)

/-- A read of cycle `t`: it finds the values as they stood before the writes of its cycle (R65, R228). -/
def Cx.read (x : Cx) (key : RngKey) (t : Nat) (p : Pend) : Cx :=
  let i := p.by_
  match p.wr with
  | .ld d off => x.ldRead i t d off
  | .maskWords q0 q1 => x.maskRead i t q0 q1
  | .preRow h start m r => x.preRead i t h start m r
  | .chunk v h eoff n soff k => x.chunkRead i t v h eoff n soff k
  | .pair w k cyc acc => x.pairRead i t w k cyc acc
  | .group w g => x.veGroup key i t w g
  | .move src n dst =>
    let (x, l) := x.teRead i src n
    { x with c := x.c.pendWr i (t + 6) (.scr dst l) }
  | .gather addr src n =>
    let (x, l) := x.teRead i src n
    { x with c := x.c.pendWr i (t + 24) (.nearPut addr l) }
  | .nearGet a n dst => { x with c := x.c.pendWr i (t + 96) (.land a dst (x.mem.read a n)) }
  | .source k => x.sourceRead i t k
  | .queueChunk q k dst =>
    let (x, l) := x.queueRead i q k
    { x with c := x.c.pendWr i (t + 4) (.scr dst l) }
  | _ => x

/-- The operation reads. -/
def Wr.isRead : Wr → Bool
  | .ld .. | .maskWords .. | .preRow .. | .chunk .. | .pair .. | .group .. | .move .. | .gather .. | .nearGet .. | .source .. | .queueChunk .. => true
  | _ => false

/-! ### Writes of a cycle -/

/-- Flags of the conversions of an engine: the MVE's or the VE's (R160, R194). -/
def Core.addFlags (c : Core) (eng : Nat) (f : NumFlags) : Core :=
  if eng = 3 then { c with mve := { c.mve with ns := c.mve.ns ||| f } } else { c with ve := { c.ve with ns := c.ve.ns ||| f } }

/-- Elements of a VST or MPOP land (R174, R227): their words are checked first (R235, R241), and the flags of the cycle and an overflow of a
bound handle come about with them (R194, R213). -/
def Cx.putElems (x : Cx) (env : Env) (i : Iss) (w h : Nat) (l : List (Nat × Nat × Bool × NumFlags)) : Cx :=
  let ws := elWords w (l.map (·.1))
  let e1 := if x.c.scr.wordsOn ws then [] else [PErr.addressError]
  let e2 := if ws.any (x.c.wordProtected env.step) then [PErr.protectedWrite] else []
  match firstErr (e1 ++ e2) with
  | some e => x.emit [.err e i.eng i.ctx i.pc 0]
  | none =>
    let r := (joinNts (l.map fun e => (e.1, ntsOf w e.2.1 e.2.2.1))).foldl (fun (r : Core × List Eff) e =>
      let q := r.1.putNts i e.1 e.2
      (q.1, r.2 ++ q.2)) (x.c, [])
    let over_ := r.1.overflowEff env h i l
    let c := r.1.addFlags i.eng (stFlags l)
    let c := over_.foldl (fun c e => match e with | .overflow g .. => c.overflowed env g | _ => c) c
    ({ x with c := c } : Cx).emit (r.2 ++ over_)

/-- A run of nonets lands, with what its merges meet (R237). -/
def Cx.putScr (x : Cx) (i : Iss) (off : Nat) (d : List PNt) : Cx :=
  let r := x.c.putNts i off d
  ({ x with c := r.1 } : Cx).emit r.2

/-- Comparisons of a drain (R132). -/
def Cx.checkAll (x : Cx) (suggest : Nat) (i : Iss) (lanes : Nat) (l : List (List Acc × Chk)) : Cx :=
  l.foldl (fun x e => x.opeCheck suggest i (chkOf lanes e.1 e.2)) x

/-- A write takes effect, at the end of cycle `t`. -/
def Cx.apply (x : Cx) (env : Env) (t : Nat) (p : Pend) : Cx :=
  let c := x.c
  let i := p.by_
  match p.wr with
  | .sreg d v => { x with c := { c with sregs := if d = 0 then c.sregs else c.sregs.write ⟨0, false⟩ d v } }
  | .scr off d => x.putScr i off d
  | .back off d => { x with c := { c with scr := c.scr.writeNts off d } }
  | .elems w h l => x.putElems env i w h l
  | .ctl off v => { x with c := c.ctlWrite off v }
  | .cache a d => { x with c := { c with ve := c.ve.putCache a d } }
  | .cmask a m v b => { x with c := { c with ve := c.ve.putMask a m v b } }
  | .tb k d => { x with c := { c with ope := { c.ope with tb := c.ope.tb.writeList .zero k d } } }
  | .tag h g =>
    { x with c := { c with ope := if h then { c.ope with tag1 := some g } else { c.ope with tag0 := some g } } }
  | .mask m => { x with c := { c with ope := { c.ope with mask := m } } }
  | .row r d => { x with c := { c with ope := { c.ope with shadow := c.ope.shadow.loadRow r d } } }
  | .cols => { x with c := { c with ope := { c.ope with shadow := c.ope.shadow.loadCols } } }
  | .adds w sub ps => { x with c := { c with ope := c.ope.addCells w env.key sub ps } }
  | .terms ps => { x with c := { c with ope := c.ope.addTerms ps } }
  | .check n l => x.checkAll env.suggest i n l
  | .swap drn clr => x.swap t drn clr i.ctx i.pc
  | .areg n d =>
    { x with c := { c with te := { c.te with areg := c.te.areg.write 0 n ((c.te.areg.get 0 n + d) % 2 ^ 60) } } }
  | .held k d => { x with c := { c with mve := { c.mve with held := c.mve.held.writeList .zero k d } } }
  | .vcnt n b => { x with c := { c with ve := { c.ve with vcnt := n, vcntP := b } } }
  | .stat sb l =>
    let s := l.foldl (fun s e => s.add e.1 e.2) (c.ve.stats.get .reset sb)
    { x with c := { c with ve := { c.ve with stats := c.ve.stats.write .reset sb s } } }
  | .sclr sb b =>
    { x with c := { c with ve := { c.ve with stats := c.ve.stats.write .reset sb { Stats.reset with base := b } } } }
  | .handle h f sc =>
    { x with c := { c with handles := c.handles.write .reset h { c.handles.get .reset h with fmt := f, scale := sc } } }
  | .gpend g s =>
    { x with c := { c with train := { c.train with pend := c.train.pend.write .reset g ((c.train.pend.get .reset g).merge s) } } }
  | .rx r => { x with c := { c with me := { c.me with rx := r } } }
  | .flags f => { x with c := c.addFlags i.eng f }
  | .land _ off d => x.putScr i off d
  | .record n r =>
    let e := c.me.endOf n
    { x with c := { c with me := { c.me with ends := c.me.ends.put n { e with recs := e.recs ++ [r] } } } }
  | .nearPut a d => { x with mem := x.mem.writePart a d }
  | .combDone q =>
    let k := c.me.comb.get .reset q
    { x with c := ({ c with me := { c.me with comb := c.me.comb.put q { k with complete := true } } } : Core).bump k.counter }
  | _ => x

/-- A write of a numeric status word by the SE (R40). -/
def Wr.isNum : Wr → Bool
  | .ctl o _ => o == 0x30 || o == 0x38 || o == 0x40
  | _ => false

/-- A swap (R122): it comes before the adds of its cycle. -/
def Wr.isSwap : Wr → Bool
  | .swap .. => true
  | _ => false

/-- A control-window write (R57, step 4). -/
def Wr.isCtl : Wr → Bool
  | .ctl .. => true
  | _ => false

/-- A held element, which can be read from the cycle after its write (R147), or a background value, which stands over the static writes of
its cycle (R229): what comes after everything else of its cycle. -/
def Wr.isLast : Wr → Bool
  | .held .. | .back .. => true
  | _ => false

/-- A combining queue becomes Complete and its counter is incremented, beside the signals of the cycle (R57, R316). -/
def Wr.isComb : Wr → Bool
  | .combDone _ => true
  | _ => false

/-- Apply the writes of a list that satisfy a test. -/
def Cx.applyIf (x : Cx) (env : Env) (t : Nat) (f : Wr → Bool) (l : List Pend) : Cx :=
  l.foldl (fun x p => if f p.wr then x.apply env t p else x) x

/-- A write that no other order of the cycle places. -/
def Wr.isPlain (w : Wr) : Bool := !w.isSwap && !w.isCtl && !w.isRead && !w.isLast && !w.isComb

/-- The queue releases of one completing instruction: tile queue and result queue (R128, R154, R155, R170). -/
def Cx.queueRelease (x : Cx) (i : Infl) : Cx :=
  i.acts.foldl (fun x a =>
    match a with
    | .tqRel =>
      if x.c.ope.tqFill = 0 then x.emit [.err .tqUnderflow i.eng i.ctx i.pc 0]
      else { x with c := { x.c with ope := x.c.ope.tqRelease } }
    | .rqRel | .mpopRel =>
      if x.c.mve.rqFill = 0 then x.emit [.err .rqUnderflow i.eng i.ctx i.pc 0]
      else { x with c := { x.c with mve := x.c.mve.rqRelease } }
    | _ => x) x

/-- A combining queue whose result has been taken is reopened (R317). -/
def CombQ.reopen (q : CombQ) : CombQ := { q with complete := false, arrived := 0, added := 0, sum := [] }

/-- The other effects of one completing instruction: a decoupling queue becomes Empty, a combining queue is reopened (R273, R317). -/
def Cx.finish (x : Cx) (d : Nat) (i : Infl) : Cx :=
  i.acts.foldl (fun x a =>
    match a with
    | .qEmpty q => { x with c := { x.c with te := { x.c.te with dq := x.c.te.dq.erase q } } }
    | .comb q => ({ x with c := { x.c with me := { x.c.me with comb := x.c.me.comb.put q (x.c.me.comb.get .reset q).reopen } } } : Cx).emit
      [.combCredit q (x.c.me.comb.get .reset q).added d]
    | _ => x) x

/-- A pad record that a held MSEND has sent is on its way (R302). -/
def Core.padOut (c : Core) : Bool :=
  (c.te.sends ++ c.te.outb ++ c.te.net).any fun d => match d.kind with | .pad .. => true | _ => false

/-- An engine whose stream has ended goes to Halted once every instruction it has issued has completed (R87); one that drains, also once its
pad records have landed (R74). -/
def Core.settleHalts (c : Core) : Core :=
  { c with engs := c.engs.mapVals fun e g =>
      if g.haltPend && g.st != .halted && !(c.infl.any fun i => i.eng == e) && !(g.st == .draining && e == 5 && c.padOut) then
        { g with st := .halted }
      else g }

/-- Time moves on to cycle `t`. -/
def Core.advance (c : Core) (t : Nat) : Core :=
  if t ≤ c.now then c else { c.gain (t - c.now) with now := t }

/-- An issued instruction completes by cycle `d`. -/
def Infl.dueBy (i : Infl) (d : Nat) : Bool := match i.due with | some t => decide (t ≤ d) | none => false

/-- Whatever takes effect in cycle `d` (R57, R65 to R67): the accesses are settled, reads come first, then the writes, releases, adds, a
drained row, signals, completions, the combiner and control-window writes, one of which that clears the overrun record so wins over a capture of its cycle
(DEDUCED, log 122). -/
def Cx.cycle (x : Cx) (env : Env) (d : Nat) : Cx :=
  let now := issueOrder (x.c.pend.filter fun p => decide (p.due ≤ d))
  let x := { x with c := { x.c.advance d with pend := x.c.pend.filter fun p => decide (d < p.due) } }
  let x := if now.any fun p => p.wr.lasts then { x with c := x.c.busy d } else x
  let (x, now) := x.settle now
  let x := now.foldl (fun x p => if p.wr.isRead then x.read env.key d p else x) x
  let x := x.requestsAt d
  let fin := x.c.infl.filter (·.dueBy d)
  let x := { x with c := { x.c with infl := x.c.infl.filter fun i => !(i.dueBy d) } }
  let x := now.foldl (fun x w => match w.wr with | .ctl o v => { x with c := x.c.ctlWriteNum o v } | _ => x) x
  let x := x.applyIf env d Wr.isSwap now
  let x := x.applyIf env d Wr.isPlain now
  let x := (fin.filter fun i => i.eng == 3).foldl Cx.queueRelease x
  let x := (fin.filter fun i => i.eng != 3).foldl Cx.queueRelease x
  let x := x.emissionsAt env.suggest d
  let x := x.groupsAt env.key d
  let x := if x.c.ope.drainDue = some d then x.drainRow d else x
  let x := x.applyIf env d Wr.isLast now
  let x := x.signals fin
  let x := x.applyIf env d Wr.isComb now
  let x := fin.foldl (fun x i => x.finish d i) x
  let x := x.combineAt env.free d
  let x := x.applyIf env d (fun w => w.isCtl && !w.isNum) now
  { x with c := x.c.settleHalts }

/-- The next cycle in which something takes effect. -/
def Core.nextDue (c : Core) (env : Env) : Option Nat :=
  let a := c.pend.foldl (fun m p => minDue m (some p.due)) (c.me.combDue env.free)
  let b := c.infl.foldl (fun m i => minDue m i.due) a
  let d := minDue b c.ope.drainDue
  c.mve.streams.foldl (fun m s => minDue m s.due) d

/-- The next cycle to look at on the way to cycle `t`. -/
def Core.nextStop (c : Core) (env : Env) (t : Nat) : Nat :=
  let m := (c.points env).foldl min t
  match c.nextDue env with
  | some d => if c.now < d then min d m else m
  | none => m

/-- Something takes effect in the present cycle. -/
def Core.dueNow (c : Core) (env : Env) : Bool := dueBy (c.nextDue env) c.now

/-- The present cycle passes, and time moves on: after a cycle in which something takes effect to the next, in which a held head may be satisfied
(R42), else to the next cycle to look at. -/
def Cx.pass (x : Cx) (env : Env) (t : Nat) : Cx :=
  if x.c.dueNow env then
    let y := x.cycle env x.c.now
    if y.failed then y else { y with c := y.c.advance (x.c.now + 1), late := false }
  else { x with c := x.c.advance (x.c.nextStop env t) }

/-- Cycles pass up to cycle `t`, until a program error is raised, an instruction is in turn (R42) or another core has to come on first (R12, R304). -/
def Cx.runAux (env : Env) (t : Nat) : Nat → Cx → Cx
  | 0, x => x
  | f + 1, x =>
    if x.failed || decide (t ≤ x.c.now) || x.c.blocked env then x
    else if x.c.ahead env then { x with late := true }
    else runAux env t f (x.pass env t)

/-- Bring a core to cycle `t`: everything that takes effect before `t` has done so. A core in which an instruction comes into turn before
then stays in that cycle (R42). -/
def Cx.runTo (x : Cx) (env : Env) (t : Nat) : Cx := Cx.runAux env t (t - x.c.now) x

/-- The core has come to cycle `t`, and no program error on the way. -/
def Cx.reached (x : Cx) (t : Nat) : Bool := !x.failed && decide (t ≤ x.c.now)

end Sys2Proof.Machine
end

