-- ==== Sys2Proof/Machine/Encoding.lean ====
section
/-! DEFINITION. The instruction word (R75): its fields, the operations of each engine with the operand bits they use, and
the checks an engine makes at the head of its queue (R76, R578). -/

namespace Sys2Proof.Machine

/-- An instruction word from its fields (R75). -/
def insWord (eng op : Nat) (c : Ctl) (operands : Nat) : Word :=
  BitVec.ofNat 72 (fld eng 69 + fld op 63 + fld (b2n c.sched) 62 + fld c.wkind.toNat 60 + fld c.wid.toNat 54 +
    fld c.skind.toNat 51 + fld c.sid.toNat 45 + operands)

/-- The wait and signal fields of a word (R75). -/
def ctlOf (w : Word) : Ctl :=
  ⟨bit w 62, BitVec.ofNat 2 (bits w 61 60), BitVec.ofNat 6 (bits w 59 54), BitVec.ofNat 2 (bits w 52 51),
   BitVec.ofNat 6 (bits w 50 45)⟩

/-- The operand bits of a word (R75). -/
def operandsOf (w : Word) : Nat := bits w 44 0

/-- Bits [hi:lo] set. -/
def rangeMask (hi lo : Nat) : Nat := (2 ^ (hi + 1 - lo) - 1) * 2 ^ lo

/-- Operand bits the common operations use (R77, R82). -/
def commonMask (op : Nat) : Option Nat :=
  match op with
  | 0x00 | 0x3E => some 0
  | 0x3F => some (rangeMask 44 33)
  | _ => none

/-- Operand bits of the SE's operations (R95, R96). -/
def seMask (op : Nat) : Option Nat :=
  match op with
  | 0x01 | 0x02 | 0x03 | 0x04 | 0x05 | 0x06 | 0x07 | 0x08 | 0x09 | 0x0A | 0x0B | 0x0C => some (rangeMask 44 30)
  | 0x10 | 0x11 | 0x20 | 0x21 | 0x28 | 0x29 | 0x14 => some (rangeMask 44 0)
  | 0x12 | 0x13 => some (rangeMask 44 35 + rangeMask 6 0)
  | 0x15 => some (rangeMask 44 40 + rangeMask 31 0)
  | 0x30 => some 0
  | _ => none

/-- Operand bits of the TE's operations (R102, R272). -/
def teMask (op : Nat) : Option Nat :=
  match op with
  | 0x01 => some (rangeMask 44 32 + rangeMask 25 0)
  | 0x02 => some (rangeMask 44 35 + rangeMask 10 0)
  | 0x03 => some (rangeMask 44 33 + rangeMask 25 0)
  | 0x04 => some (rangeMask 44 29 + rangeMask 25 0)
  | 0x05 => some (rangeMask 44 26)
  | 0x06 => some (rangeMask 44 34)
  | _ => none

/-- Operand bits of the OPE's operations (R114, R119, R121, R123, R125, R126, R129). -/
def opeMask (op : Nat) : Option Nat :=
  match op with
  | 0x01 => some (rangeMask 44 33 + rangeMask 31 16)
  | 0x02 => some (rangeMask 44 23)
  | 0x04 => some (rangeMask 44 3)
  | 0x05 => some (rangeMask 44 7)
  | 0x08 => some (rangeMask 44 42)
  | 0x09 => some 0
  | 0x0A => some (rangeMask 44 15)
  | _ => none

/-- Operand bits of the MVE's operations (R146 to R148, R154). -/
def mveMask (op : Nat) : Option Nat :=
  match op with
  | 0x01 => some (rangeMask 44 15)
  | 0x02 => some (rangeMask 44 1)
  | 0x04 => some (rangeMask 44 21)
  | 0x08 => some (rangeMask 44 20)
  | _ => none

/-- Operand bits of the VE's operations (R171 to R184, R188, R190). -/
def veMask (op : Nat) : Option Nat :=
  match op with
  | 0x01 => some (rangeMask 44 1)
  | 0x02 => some (rangeMask 44 12)
  | 0x04 => some (rangeMask 44 30)
  | 0x05 => some (rangeMask 44 25)
  | 0x06 => some (rangeMask 44 15)
  | 0x07 => some (rangeMask 44 30)
  | 0x08 => some (rangeMask 44 0)
  | 0x10 | 0x11 | 0x12 | 0x13 | 0x14 | 0x18 => some (rangeMask 44 12 + 1)
  | 0x15 | 0x17 => some (rangeMask 44 0)
  | 0x16 => some (rangeMask 44 12 + rangeMask 2 0)
  | 0x19 => some (rangeMask 44 7)
  | 0x1A => some (rangeMask 44 20)
  | 0x1B => some (rangeMask 44 17)
  | 0x1C => some (rangeMask 44 12)
  | 0x1D => some (rangeMask 44 11)
  | 0x1E => some (rangeMask 33 19)
  | 0x1F => some (rangeMask 44 32)
  | 0x20 => some (rangeMask 44 2)
  | 0x21 => some (rangeMask 44 31)
  | _ => none

/-- Operand bits of the ME's operations (R307, R308, R310, R314, R317). -/
def meMask (op : Nat) : Option Nat :=
  match op with
  | 0x01 => some (rangeMask 44 16)
  | 0x02 => some (rangeMask 44 11)
  | 0x03 => some (rangeMask 44 40)
  | 0x04 => some (rangeMask 44 24)
  | 0x05 => some (rangeMask 44 36)
  | _ => none

/-- The operand bits an operation of an engine uses; `none` where OP is not defined (R76). -/
def opMask (eng op : Nat) : Option Nat :=
  match commonMask op with
  | some m => some m
  | none =>
    match eng with
    | 0 => seMask op
    | 1 => teMask op
    | 2 => opeMask op
    | 3 => mveMask op
    | 4 => veMask op
    | 5 => meMask op
    | _ => none

/-- A field that selects a sub-operation holds an undefined value: FUNC of VTAB (R184), ROP of VRED (R179). -/
def badSubOp (eng op operands : Nat) : Bool :=
  (eng == 4 && op == 0x1B && decide (9 < nbits operands 22 18)) ||
  (eng == 4 && op == 0x1A && decide (5 < nbits operands 22 20))

/-- A combination of fields that a layout forbids: INCD with DRING in COPY and QLAND (R102, R272), H[5:1] with TURN in OSET
(R114), CLR or LAST without DRN in SWAP (R123), LEN 0 with LCNT clear in VCFG (R171). -/
def badCombo (eng op n : Nat) : Bool :=
  (eng == 1 && op == 0x01 && nbit n 34 && nbit n 33) ||
  (eng == 1 && op == 0x06 && nbit n 35 && nbit n 34) ||
  (eng == 2 && op == 0x01 && nbit n 34 && nbits n 41 37 != 0) ||
  (eng == 2 && op == 0x08 && !(nbit n 44) && (nbit n 43 || nbit n 42)) ||
  (eng == 4 && op == 0x01 && nbits n 29 14 == 0 && !(nbit n 13))

/-- The engine number of a word (R75). -/
def engOf (w : Word) : Nat := bits w 71 69

/-- The operation of a word (R75). -/
def opOf (w : Word) : Nat := bits w 68 63

/-- Illegal opcode (R76, first item), for the engine `eng`. -/
def illegalOpcode (eng : Nat) (w : Word) : Bool :=
  engOf w != eng || (opMask eng (opOf w)).isNone || badSubOp eng (opOf w) (operandsOf w)

/-- Illegal encoding (R76, second item). -/
def illegalEncoding (eng : Nat) (w : Word) : Bool :=
  (bits w 61 60 == 0 && (bit w 62 || bits w 59 54 != 0)) ||
  (bits w 52 51 == 0 && bits w 50 45 != 0) ||
  bit w 53 ||
  (match opMask eng (opOf w) with | some m => operandsOf w &&& m != operandsOf w | none => false) ||
  badCombo eng (opOf w) (operandsOf w)

/-- The checks of the first cycle at the head (R578, stage 1). -/
def headCheck (co : Coupling) (eng : Nat) (w : Word) : Option PErr :=
  if illegalOpcode eng w then some .illegalOpcode
  else if illegalEncoding eng w then some .illegalEncoding
  else if !(co.waitLegal eng (waitOf w).1 (waitOf w).2) then some .illegalCoupling
  else none

end Sys2Proof.Machine
end

