-- ==== Sys2Proof/Machine/Issue.lean ====
section
/-! DEFINITION. Issue (R42, R52, R53, R60, R76, R83 to R87, R100, R437, R578): an instruction that reaches the head of its
queue is checked and held, or issues; loops replay their bodies. One operation serves every instruction of every engine. -/

namespace Sys2Proof.Machine

/-! ### Loops and the queue -/

/-- Close the levels whose body ends at the program counter: the next iteration starts, or the level ends (R83, R86). -/
def closeLevels : List Level → Nat → List Level × Nat
  | [], pc => ([], pc)
  | l :: ls, pc =>
    if pc = l.stop then
      if 1 < l.remaining then ({ l with remaining := l.remaining - 1 } :: ls, l.start) else closeLevels ls pc
    else (l :: ls, pc)

/-- Close levels at the program counter; the loop buffer is free again once the outermost level has ended. -/
def Ctx.close (k : Ctx) : Ctx :=
  let (ls, pc) := closeLevels k.levels k.pc
  { k with levels := ls, pc := pc, buf := if ls.isEmpty then [] else k.buf }

/-- Take the instruction at the head: out of the queue, and into the loop buffer inside a loop (R86). -/
def Ctx.take (k : Ctx) (w : Word) : Ctx :=
  if !k.levels.isEmpty && decide (k.pc - k.bufBase < k.buf.length) then { k with pc := k.pc + 1 }
  else { k with queue := k.queue.drop 1, pc := k.pc + 1, buf := if k.levels.isEmpty then [] else k.buf ++ [w] }

/-- Discard `n` instructions unissued (R83); those that have not reached the queue are discarded as they arrive. -/
def Ctx.skipBody (k : Ctx) (n : Nat) : Ctx :=
  let have_ := if k.levels.isEmpty then 0 else min n (k.buf.length - (k.pc - k.bufBase))
  let need := n - have_
  let got := min need k.queue.length
  let k := { k with
    pc := k.pc + n
    skip := need - got
    buf := if k.levels.isEmpty then [] else k.buf ++ k.queue.take got
    queue := k.queue.drop got }
  if k.skip = 0 then k.close else k

/-- Instructions arrive in the queue (R88). -/
def Ctx.deliver (k : Ctx) (ws : List Word) : Ctx :=
  let g := min k.skip ws.length
  let d := { k with
    skip := k.skip - g
    buf := if k.levels.isEmpty then [] else k.buf ++ ws.take g
    queue := k.queue ++ ws.drop g
    supplied := k.supplied + ws.length }
  if 0 < k.skip && d.skip = 0 then d.close else d

/-- The largest outermost body (R85, R288). -/
def Engine.maxBody (g : Engine) : Nat := if 1 < g.nctx then 64 else 256

/-- A LOOP with this body breaks a rule of R85. -/
def Engine.badLoop (g : Engine) (k : Ctx) (body : Nat) : Bool :=
  body == 0 || k.levels.length == 4 ||
  (match k.levels with
   | l :: _ => decide (l.stop < k.pc + 1 + body)
   | [] => decide (g.maxBody < body) || decide (k.total < k.pc + 1 + body))

/-- Enter a loop, or skip its body (R83). -/
def Ctx.enter (k : Ctx) (w : Word) (body count : Nat) : Ctx :=
  let outer := k.levels.isEmpty
  let k := k.take w
  if count = 0 then k.skipBody body
  else
    { k with
      levels := ⟨count, k.pc, k.pc + body⟩ :: k.levels
      buf := if outer then [] else k.buf
      bufBase := if outer then k.pc else k.bufBase }

/-! ### At the head of the queue -/

/-- The head is held (R60, R63): the hold is noted from its first cycle, a scheduled wait records a slip, and a stream keeps the row mask of
the cycle in which it reached the head (R121). -/
def Core.hold (c : Core) (eng t : Nat) (w : Word) : Core :=
  let g := c.eng eng
  let k := g.here
  match k.held with
  | some _ => c
  | none =>
    let (kind, id) := waitOf w
    let c := { c with st := if bit w 62 then c.st.recordSlip eng kind id k.pc else c.st }
    (c.busy t).setEng eng { g.setCtx g.cur { k with held := some t, slipFrom := t, scheduled := bit w 62, headMask := if eng = 2 then some c.ope.mask else none }
                   with st := .waiting }

/-- A hold ends: the held cycles of a scheduled one are added to the step slip cycles (R60, R61). -/
def Core.unhold (c : Core) (eng t : Nat) : Core :=
  let g := c.eng eng
  let k := g.here
  let c := if k.held.isSome && k.scheduled then { c with st := c.st.addSlip (c.heldFor t k.slipFrom) } else c
  c.setEng eng { g.setCtx g.cur { k with held := none, scheduled := false } with st := .running }

/-- What comes of an instruction at the head: it does not issue in this cycle, or it issues in cycle `t`. -/
inductive HeadOut where
  | stop (x : Cx)
  | ready (x : Cx) (t : Nat)
  deriving DecidableEq, Repr

/-- The instruction `w` at the head of engine `eng`: checked in its first cycle there, and held until its wait is satisfied (R42, R52, R54,
R578). An engine of a lower number whose instruction is in turn in the same cycle goes first, and takes a flag that both wait for (R53). -/
def Cx.atHead (x : Cx) (env : Env) (eng : Nat) (w : Word) : HeadOut :=
  let g := x.c.eng eng
  if !g.active || g.here.head != some w then .stop x
  else
    let t := max x.c.now g.headFree
    let x := x.runTo env t
    if !(x.reached t) || x.c.lowerFirst env eng then .stop x
    else
      let g := x.c.eng eng
      let k := g.here
      match (if k.held.isNone && !k.waited then headCheck x.c.coup eng w else none) with
      | some e => .stop (x.emit [.err e eng g.cur k.pc 0])
      | none =>
        if g.boundaryHeld env eng then .stop x
        else if k.waited || x.c.coup.waitOk eng (waitOf w).1 (waitOf w).2 then .ready x t
        else .stop { x with c := x.c.hold eng t w }

/-! ### Issue -/

/-- What an operation does at its issue: the core afterwards, the checks that failed, the cycles it holds the head, its
completion cycle, what it does then, and the context it leaves where that is not the next instruction's (LOOP, HALT). -/
structure OpRes where
  x : Cx
  errs : List PErr
  hold : Nat
  due : Option Nat
  acts : List CompAct
  after : Option Ctx
  deriving DecidableEq, Repr

/-- An operation that completes in its issue cycle (R78). -/
def OpRes.now (i : Iss) (x : Cx) : OpRes := ⟨x, [], 1, some i.t, [], none⟩

/-- An operation that completes in cycle `c`. -/
def OpRes.at_ (x : Cx) (c : Nat) : OpRes := ⟨x, [], 1, some c, [], none⟩

/-- An operation that fails its checks. -/
def OpRes.bad (x : Cx) (l : List PErr) : OpRes := ⟨x, l, 1, none, [], none⟩

/-- Note an issued instruction; one that completes in its issue cycle without a signal is not listed. -/
def Core.note (c : Core) (i : Iss) (w : Word) (r : OpRes) : Core :=
  let c := c.busy (max i.t (r.due.getD 0))
  if r.due == some i.t && bits w 52 51 == 0 && r.acts.isEmpty then c
  else { c with infl := c.infl ++ [⟨i.tid, i.eng, i.ctx, i.pc, r.due, bits w 52 51, bits w 50 45, r.acts⟩] }

/-- What a head held is forgotten as the context moves on. -/
def Ctx.onward (k : Ctx) : Ctx := { k with waited := false, headMask := none }

/-- What a context has begun once an instruction of it has issued (R437). -/
def Env.begunAfter (env : Env) (eng ctx pc begun : Nat) : Nat :=
  if env.marked eng ctx pc then env.markStep eng ctx begun + 1 else begun

/-- Move past an issued instruction: the program counter, the queue, and the first cycle of the next (R42, R86). -/
def Core.leave (c : Core) (env : Env) (i : Iss) (w : Word) (hold : Nat) (after : Option Ctx) : Core :=
  let g := c.eng i.eng
  let k := g.ctx i.ctx
  let g := g.setCtx i.ctx { (after.getD (k.take w).close).onward with begun := env.begunAfter i.eng i.ctx i.pc k.begun }
  c.setEng i.eng { g with headFree := i.t + hold }

/-- The wait ends: its flag is consumed, unless an earlier cycle has consumed it, and its held cycles are counted (R52, R53, R57, R60). -/
def Core.consumeWait (c : Core) (eng t : Nat) (w : Word) : Core :=
  let (kind, id) := waitOf w
  let c := if kind = 1 && !(c.eng eng).here.waited then { c with coup := c.coup.setFlag id false } else c
  c.unhold eng t

/-- Issue in cycle `t`, once the wait is satisfied: the signal and the operation's own checks, then its effect (R578). -/
def Cx.issueAt (x : Cx) (env : Env) (eng t : Nat) (w : Word) (body : Iss → Cx → OpRes) : Cx :=
  let g := x.c.eng eng
  let i : Iss := ⟨t, x.c.nextTid, eng, g.cur, g.here.pc⟩
  let x := { x with c := { x.c.consumeWait eng t w with nextTid := x.c.nextTid + 1 } }
  let sig := if x.c.coup.sigLegal eng (bits w 52 51) (bits w 50 45) then [] else [PErr.illegalCoupling]
  let r := body i x
  match firstErr (sig ++ r.errs) with
  | some e => x.emit [.err e eng i.ctx i.pc 0]
  | none =>
    { r.x with c := ((r.x.c.leave env i w r.hold r.after).note i w r).settleHalts, late := false }

/-- An instruction at the head issues if its wait is satisfied; `w` is its word. -/
def Cx.issue (x : Cx) (env : Env) (eng : Nat) (w : Word) (body : Iss → Cx → OpRes) : Cx :=
  match x.atHead env eng w with
  | .stop x => x
  | .ready x t => x.issueAt env eng t w body

end Sys2Proof.Machine
end

