-- ==== Sys2Proof/Machine/Operands.lean ====
section
/-! DEFINITION. Operand forms: SE registers and immediates (R94, R95), TE address registers and global addresses (R101,
R103, R105, R223). Handles and VE slots are in Handles. -/

namespace Sys2Proof.Machine

/-! ### SE registers (R94) -/

/-- Read an SE register; s0 reads as zero. -/
def Core.sreg (c : Core) (r : Nat) : PWord := if r = 0 then ⟨0, false⟩ else c.sregs.get ⟨0, false⟩ r

/-- An operation would write register `r` at the end of cycle `t`. -/
def Pend.sets (p : Pend) (t r : Nat) : Bool := p.due == t && (match p.wr with | .sreg d _ => d == r | _ => false)

/-- Write an SE register in cycle `t`; writes to s0 are discarded. What an earlier instruction would write to it at the end of the same
cycle is lost (R66). -/
def Core.setSreg (c : Core) (t r : Nat) (v : PWord) : Core :=
  if r = 0 then c
  else
    { c with
      sregs := c.sregs.write ⟨0, false⟩ r v
      pend := c.pend.filter fun p => !(p.sets t r) }

/-- A signed 35-bit immediate (R95). -/
def imm35 (i : BitVec 35) : Word := i.signExtend 72

/-- The address or offset A + IMM. -/
def Core.seAddr (c : Core) (a : Nat) (imm : BitVec 35) : Nat := ((c.sreg a).v + imm35 imm).toNat

/-! ### Addresses -/

/-- A TE address register (R101). -/
def Core.areg (c : Core) (n : Nat) : Nat := c.te.areg.get 0 n

/-- The chip field names this chip (R223). -/
def Env.isHere (env : Env) (chip : Nat) : Bool := chip == 0xFFFF || (env.chip != 0xFFFF && chip == env.chip)

/-- A chip ID is in the system: this chip's, or one below the product of the dimension sizes (R103, R223, R364). -/
def Env.inSystem (env : Env) (chip : Nat) : Bool :=
  env.isHere chip ||
    (env.chip != 0xFFFF && chip != 0xFFFF && decide (chip < (env.sizes.take env.dims).foldl (fun n s => n * max s 1) 1))

/-- The region of a global address as seen from a core: `none` for another chip. -/
def Env.place (env : Env) (a : Nat) : Option Region :=
  if env.isHere (chipOf a) then some (region env.absent (localOf a)) else none

/-- The offset of a range in the core's own scratchpad, if the whole range lies there. -/
def Env.ownScratch (env : Env) (a n : Nat) : Option Nat :=
  match env.place a with
  | some (.scratch c off) => if c = env.core && off + n ≤ scratchSize then some off else none
  | _ => none

/-- The local address of a range in the stack over the core, if the whole range lies there (R103) and meets no block of the
context table (R322). Block addresses: the low six bits are cleared (R15). -/
def Env.ownStack (env : Env) (a n : Nat) : Option Nat :=
  let l := alignDown (localOf a) 64
  match env.place a with
  | some (.near k) =>
    if k = stackOf env.core && l + n ≤ nearBase + (k + 1) * stackSize && l + n ≤ tableBase then some l else none
  | _ => none

/-- A range meets a sealed segment (R92). -/
def Env.sealed (env : Env) (l n : Nat) : Bool := env.seals.any fun s => decide (s.1 < l + n) && decide (l < s.1 + s.2)

/-- What SIZE adds to an address register: a near or far address moves by whole blocks (R105). -/
def Env.incSize (env : Env) (a n : Nat) : Nat :=
  match region env.absent (localOf a) with
  | .near _ | .far => alignUp n 64
  | _ => n

/-- Add to an address register at the end of the issue cycle (R105). -/
def Core.incAreg (c : Core) (i : Iss) (n delta : Nat) : Core := c.pendWr i i.t (.areg n delta)

end Sys2Proof.Machine
end

