-- ==== Sys2Proof/Machine/ScalarOps.lean ====
section
/-! DEFINITION. The operations common to every engine (R77, R82 to R87) and the scalar engine's operations (R94 to R100),
as what each does at its issue. -/

namespace Sys2Proof.Machine

/-! ### NOP, HALT, LOOP -/

/-- NOP: does nothing but apply its signal (R77, R78). -/
def opNop (i : Iss) (x : Cx) : OpRes := .now i x

/-- The next context of an engine whose stream has not ended, in rotation from the one in turn (R289). -/
def Engine.nextLive (g : Engine) : Option Nat :=
  ((List.range g.nctx).map fun k => (g.cur + 1 + k) % g.nctx).find? fun x => x != g.cur && !(g.ctx x).ended

/-- HALT ends the stream of the context in turn; inside a loop body it is an illegal loop (R79, R87). The engine goes to
Halted, once its instructions have completed, when every context has ended. -/
def opHalt (i : Iss) (x : Cx) : OpRes :=
  let g := x.c.eng i.eng
  let k := g.here
  if !k.levels.isEmpty then .bad x [.illegalLoop]
  else
    let k' := { k.take (k.head.getD 0) with ended := true }
    let g := match g.nextLive with
      | some n => { g.setCtx n { g.ctx n with slipFrom := i.t + 3 } with cur := n }
      | none => { g with haltPend := true }
    { OpRes.now i { x with c := x.c.setEng i.eng g } with
      after := some k'
      hold := if g.haltPend then 1 else 3 }

/-- LOOP latches the count register and enters the body, or skips it when the count is zero (R83, R85). -/
def opLoop (lc : BitVec 3) (body : BitVec 9) (i : Iss) (x : Cx) : OpRes :=
  let g := x.c.eng i.eng
  let k := g.here
  if g.badLoop k body.toNat then .bad x [.illegalLoop]
  else
    { OpRes.now i x with after := some (k.enter (k.head.getD 0) body.toNat (x.c.loopCnt.get 0 (8 * i.eng + lc.toNat))) }

/-! ### Arithmetic (R94, R96) -/

/-- Poison of a result is that of its register operands (R99). -/
def seBin (f : Word → Word → Word) (d a b : BitVec 5) (i : Iss) (x : Cx) : OpRes :=
  let p := x.c.sreg a.toNat
  let q := x.c.sreg b.toNat
  .now i { x with c := x.c.setSreg i.t d.toNat ⟨f p.v q.v, p.p || q.p⟩ }

/-- An operation on one register. -/
def seUn (f : Word → Word) (d a : BitVec 5) (i : Iss) (x : Cx) : OpRes :=
  let p := x.c.sreg a.toNat
  .now i { x with c := x.c.setSreg i.t d.toNat ⟨f p.v, p.p⟩ }

/-- The shift amount of a register: its bits [6:0] (R94). -/
def shiftAmt (b : Word) : Nat := bits b 6 0

/-- Shift left; 72 or more gives zero (R94). -/
def shlW (a : Word) (n : Nat) : Word := a <<< n

/-- Shift right with zero fill; 72 or more gives zero (R94). -/
def shrW (a : Word) (n : Nat) : Word := a >>> n

/-- Shift right with sign fill; 72 or more gives copies of the sign bit (R94). -/
def sraW (a : Word) (n : Nat) : Word := a.sshiftRight n

/-- A truth value as a word. -/
def boolW (b : Bool) : Word := if b then 1 else 0

/-- ADD. -/
def addW (a b : Word) : Word := a + b
/-- SUB. -/
def subW (a b : Word) : Word := a - b
/-- AND. -/
def andW (a b : Word) : Word := a &&& b
/-- OR. -/
def orW (a b : Word) : Word := a ||| b
/-- XOR. -/
def xorW (a b : Word) : Word := a ^^^ b
/-- CMPLT. -/
def cmpltW (a b : Word) : Word := boolW (a.slt b)
/-- CMPLTU. -/
def cmpltuW (a b : Word) : Word := boolW (a.ult b)
/-- CMPEQ. -/
def cmpeqW (a b : Word) : Word := boolW (a == b)

/-- MUL: the low 72 bits, L = 3 (R68, R96). -/
def opMul (d a b : BitVec 5) (i : Iss) (x : Cx) : OpRes :=
  let p := x.c.sreg a.toNat
  let q := x.c.sreg b.toNat
  .at_ { x with c := x.c.pendWr i (i.t + 2) (.sreg d.toNat ⟨p.v * q.v, p.p || q.p⟩) } (i.t + 2)

/-- MOVI: sign-extended to 72 bits (R96). -/
def opMovi (d : BitVec 5) (imm : BitVec 40) (i : Iss) (x : Cx) : OpRes :=
  .now i { x with c := x.c.setSreg i.t d.toNat ⟨imm.signExtend 72, false⟩ }

/-- MOVH: D[71:40] is replaced (R96). The register keeps its poison: D is an operand of its own new value (R99). -/
def opMovh (d : BitVec 5) (imm : BitVec 32) (i : Iss) (x : Cx) : OpRes :=
  let p := x.c.sreg d.toNat
  .now i { x with c := x.c.setSreg i.t d.toNat ⟨BitVec.ofNat 72 (bits p.v 39 0 + imm.toNat * 2 ^ 40), p.p⟩ }

/-! ### Memory and control (R97 to R99) -/

/-- The offset of the word of an LD or ST in the core's own scratchpad (R97, R15): `none` outside the window. The address is
a local address. -/
def seScratch (env : Env) (addr : Nat) : Option Nat :=
  match region env.absent (alignDown addr 8) with
  | .scratch c off => if addr < 2 ^ 44 && c = env.core then some off else none
  | _ => none

/-- LD: L = 6; the word is read through port 3 in the issue cycle (R68, R97, R226). -/
def opLd (env : Env) (d a : BitVec 5) (imm : BitVec 35) (i : Iss) (x : Cx) : OpRes :=
  let c := x.c
  let pois := if (c.sreg a.toNat).p then [PErr.poisonedControl] else []
  match seScratch env (c.seAddr a.toNat imm) with
  | none => .bad x (.addressError :: pois)
  | some off =>
    let errs := pois ++ (if c.scr.wordsOn [off / 8] then [] else [PErr.addressError])
    if !errs.isEmpty then .bad x errs
    else .at_ { x with c := c.pendWr i i.t (.ld d.toNat off) } (i.t + 5)

/-- ST: L = 4; the word lands in i0 + 3 (R68, R97, R227). -/
def opSt (env : Env) (d a : BitVec 5) (imm : BitVec 35) (i : Iss) (x : Cx) : OpRes :=
  let c := x.c
  let pois := if (c.sreg a.toNat).p then [PErr.poisonedControl] else []
  match seScratch env (c.seAddr a.toNat imm) with
  | none => .bad x (.addressError :: pois)
  | some off =>
    let errs := pois ++ (if c.scr.wordsOn [off / 8] then [] else [PErr.addressError]) ++
      (if c.wordProtected env.step (off / 8) then [.protectedWrite] else [])
    if !errs.isEmpty then .bad x errs
    else
      let v := c.sreg d.toNat
      .at_ { x with c := c.pendWr i (i.t + 3) (.scr off (wordNts v.v v.p)) } (i.t + 3)

/-- CWR: L = 2 (R68, R98). The word is read as it stands in the issue cycle. -/
def opCwr (d a : BitVec 5) (imm : BitVec 35) (i : Iss) (x : Cx) : OpRes :=
  let c := x.c
  let o := c.seAddr a.toNat imm
  let errs := (if ctlOffsetOk o then [] else [PErr.controlWindow]) ++ (if (c.sreg a.toNat).p then [.poisonedControl] else [])
  if !errs.isEmpty then .bad x errs
  else .at_ { x with c := c.pendWr i (i.t + 1) (.sreg d.toNat ⟨c.ctlRead o, c.ctlPoison o⟩) } (i.t + 1)

/-- CWW: L = 2; it applies in its completion cycle (R57, R68, R98). -/
def opCww (d a : BitVec 5) (imm : BitVec 35) (i : Iss) (x : Cx) : OpRes :=
  let c := x.c
  let o := c.seAddr a.toNat imm
  let v := c.sreg d.toNat
  let errs := (if !ctlOffsetOk o || cwwRefused o v.v then [PErr.controlWindow] else []) ++
    (if (c.sreg a.toNat).p || v.p then [.poisonedControl] else [])
  if !errs.isEmpty then .bad x errs
  else .at_ { x with c := c.pendWr i (i.t + 1) (.ctl o v.v) } (i.t + 1)

/-- STEP: completes in its issue cycle, and the SE issues nothing more until the step has committed (R100). -/
def opStep (i : Iss) (x : Cx) : OpRes :=
  .now i { x with c := x.c.setEng 0 { x.c.eng 0 with boundary := true } }

end Sys2Proof.Machine
end

