-- ==== Sys2Proof/Machine/TransferOps.lean ====
section
/-! DEFINITION. The transfer engine (R101 to R106, R229, R243 to R246, R264 to R286): its operations as what each does at
its issue, and the starts of what it sends. -/

namespace Sys2Proof.Machine

/-! ### Static transfers -/

/-- A ring fill takes slot NEXT at its issue: the core-relative offset of the slot, and the core with the fill in flight
(R264, R266, R267). -/
def Core.takeSlot (c : Core) (r : Nat) : Nat × Core :=
  let p := c.coup.pos.get .reset r
  let base := match ringHandle c.handles r with | some h => h.base | none => 0
  let n := (c.coup.ring r).last + 1
  (base + c.slotSize r * p.next,
   { c with coup := { c.coup with pos := c.coup.pos.write .reset r ⟨(p.next + 1) % n, p.inflight + 1⟩ } })

/-- The checks of a ring fill (R54, R103, R267, R272). -/
def Core.fillErrs (c : Core) (r n : Nat) : List PErr :=
  if !c.fillLegal r then [.illegalCoupling] else if c.slotSize r < n then [.illegalSize] else []

/-- The checks of a static access to a range of the own scratchpad: its banks and its ways (R225, R241). -/
def Core.rangeErrs (c : Core) (off n : Nat) : List PErr :=
  (if off + n ≤ scratchSize && c.scr.wordsOn (wordsOf off n) then [] else [.addressError])

/-- The checks of a static write of a range (R235, R241). -/
def Core.landErrs (c : Core) (step off n : Nat) : List PErr :=
  c.rangeErrs off n ++ (if c.rangeProtected step off n then [.protectedWrite] else [])

/-- An end of a COPY (R103). -/
inductive CopyEnd where
  | scratch (off : Nat)
  | near (addr : Nat)
  | bad
  deriving DecidableEq, Repr

/-- The end that a global address names, for `n` nonets (R103). The mirror copy of a region has no address (R259). -/
def copyEnd (env : Env) (m : Mem) (a n : Nat) : CopyEnd :=
  match env.ownScratch a n with
  | some off => .scratch off
  | none =>
    match env.ownStack a n with
    | some l => if m.touchesMirror l n then .bad else .near l
    | none => .bad

/-- The destination of a COPY or QLAND into the own scratchpad or a ring: the offset, the checks, the core with the slot
taken, and what the fill does at its completion. -/
structure FillDst where
  off : Nat
  errs : List PErr
  c : Core
  acts : List CompAct
  deriving DecidableEq, Repr

/-- A ring as the destination (R267). -/
def ringDst (c : Core) (r n : Nat) : FillDst :=
  let (off, c') := c.takeSlot r
  ⟨off, c.fillErrs r n, c', [.fill r]⟩

/-- Increments of the address registers of an instruction (R105). -/
def Core.incs (c : Core) (env : Env) (i : Iss) (l : List (Bool × Nat)) (n : Nat) : Core :=
  l.foldl (fun c e => if e.1 then c.incAreg i e.2 (env.incSize (c.areg e.2) n) else c) c

/-- A local copy (R68, R104, R227): chunk k of 144 nt is read in S + k and lands in S + 6 + k. -/
def copyLocal (i : Iss) (x : Cx) (src n : Nat) (d : FillDst) : OpRes :=
  let s := max i.t x.c.te.localFree
  let m := cdiv n 144
  let moves := (List.range m).map fun k =>
    (⟨s + k, i, .move (src + 144 * k) (min 144 (n - 144 * k)) (d.off + 144 * k)⟩ : Pend)
  let c := d.c.pendAll moves
  { OpRes.at_ { x with c := { c with te := { c.te with localFree := s + 6 + m } } } (s + 5 + m) with acts := d.acts }

/-- A read of near memory (R68, R104, R251, R252): request k of 96 nt is made in a cycle that is not in a rest window and
lands 96 cycles later. -/
def copyFromNear (i : Iss) (x : Cx) (addr n : Nat) (d : FillDst) : OpRes :=
  let s := max i.t x.c.te.nearFree
  let m := cdiv n 96
  let gets := (List.range m).map fun k =>
    (⟨reqCycle s k, i, .nearGet (addr + 96 * k) (min 96 (n - 96 * k)) (d.off + 96 * k)⟩ : Pend)
  let fin := reqCycle s (m - 1) + 96
  let c := d.c.pendAll gets
  { OpRes.at_ { x with c := { c with te := { c.te with nearFree := fin + 1 } } } fin with acts := d.acts }

/-- A write of near memory (R68, R104, R251, R252): each request is complete 24 cycles after it is made. -/
def copyToNear (i : Iss) (x : Cx) (src n addr : Nat) : OpRes :=
  let s := max i.t x.c.te.nearFree
  let m := cdiv n 96
  let gets := (List.range m).map fun k =>
    (⟨reqCycle s k, i, .gather (addr + 96 * k) (src + 96 * k) (min 96 (n - 96 * k))⟩ : Pend)
  let fin := reqCycle s (m - 1) + 24
  let c := x.c.pendAll gets
  .at_ { x with c := { c with te := { c.te with nearFree := fin + 1 } } } fin

/-- A write to a near or far address whose SIZE is not whole blocks (R103). -/
def Env.partBlocks (env : Env) (a n : Nat) : Bool :=
  n % 64 != 0 && (match region env.absent (localOf a) with | .near _ => true | .far => true | _ => false)

/-- The checks of the destination of a COPY in the own scratchpad or near memory (R92, R103, R235, R241, R267). -/
def Core.copyDstErrs (c : Core) (env : Env) (dst : Nat) (dring : Bool) (b : CopyEnd) (d : FillDst) (n : Nat) : List PErr :=
  if dring then d.errs ++ c.landErrs env.step d.off n
  else
    (if env.partBlocks (c.areg dst) n then [.illegalSize] else []) ++
    (match b with
     | .scratch o => c.landErrs env.step o n
     | .near l => if env.sealed l n then [.addressError] else []
     | .bad => [.addressError])

/-- The checks of a COPY, all of which an issue makes (R103, R578). -/
def Core.copyErrs (c : Core) (env : Env) (dst : Nat) (dring : Bool) (a b : CopyEnd) (d : FillDst) (n : Nat) : List PErr :=
  (if n = 0 then [PErr.illegalSize] else []) ++
  (match a with
   | .scratch o => c.rangeErrs o n
   | .near _ => []
   | .bad => [.addressError]) ++
  c.copyDstErrs env dst dring b d n ++
  (match a, b with
   | .near _, .near _ => [.addressError]
   | _, _ => [])

/-- COPY (R102 to R106). -/
def opCopy (env : Env) (dst src : Nat) (dring incd incs : Bool) (n : Nat) (i : Iss) (x : Cx) : OpRes :=
  let c := x.c
  let a := copyEnd env x.mem (c.areg src) n
  let b := if dring then CopyEnd.scratch 0 else copyEnd env x.mem (c.areg dst) n
  let d : FillDst := if dring then ringDst c dst n else ⟨match b with | .scratch o => o | _ => 0, [], c, []⟩
  let errs := c.copyErrs env dst dring a b d n
  if !errs.isEmpty then .bad x errs
  else
    let r := match a, b with
      | .scratch s, .scratch _ => copyLocal i x s n d
      | .near s, .scratch _ => copyFromNear i x s n d
      | .scratch s, .near l => copyToNear i x s n l
      | _, _ => .bad x [.addressError]
    { r with x := { r.x with c := r.x.c.incs env i [(incs, src), (incd, dst)] n } }

/-! ### Loads into decoupling queues -/

/-- The far range at a global address is one the TE may use: on this chip it lies in far memory and outside every mirror
copy; on another chip of the system the local address is a far address (R103, R221, R259). -/
def Env.farRange (env : Env) (m : Mem) (a n : Nat) : Bool :=
  let l := alignDown (localOf a) 64
  env.inSystem (chipOf a) && decide (farBase ≤ l) && decide (l + n ≤ farEnd) &&
    !(env.isHere (chipOf a) && m.touchesMirror l n)

/-- The scratchpad of another core at a global address, with the whole range inside it (R243): the core and the offset. -/
def Env.otherScratch (env : Env) (a n : Nat) : Option (Nat × Nat) :=
  let here := env.isHere (chipOf a)
  if !env.inSystem (chipOf a) then none
  else
    match region (if here then env.absent else []) (localOf a) with
    | .scratch k off => if (here && k = env.core) || scratchSize < off + n then none else some (k, off)
    | _ => none

/-- LOADQ (R103, R271): the queue becomes Busy, and its requests wait for their regulator. -/
def opLoadq (env : Env) (src queue : Nat) (incs : Bool) (n : Nat) (i : Iss) (x : Cx) : OpRes :=
  let c := x.c
  let a := c.areg src
  let far := env.farRange x.mem a n
  let errs := (if n = 0 || 1024 < n then [PErr.illegalSize] else []) ++
    (if (c.te.dq.get .reset queue).st = 0 then [] else [.queueBusy]) ++
    (if far || (env.otherScratch a n).isSome then [] else [.addressError])
  if !errs.isEmpty then .bad x errs
  else
    let q : DQueue := { DQueue.reset with st := 1, size := n, src := if far then a - a % 64 else a
                                          cls := if far then 0 else 2, tid := i.tid, asked := i.t }
    let c := { c with te := { c.te with dq := c.te.dq.put queue q } }
    ⟨{ x with c := c.incs env i [(incs, src)] n }, [], 1, none, [], none⟩

/-- QLAND (R267, R272, R273, R578): chunk k of a Ready queue is read in S + k and lands in S + 4 + k, on the local copy path. -/
def opQland (env : Env) (dst queue : Nat) (dring incd : Bool) (i : Iss) (x : Cx) : OpRes :=
  let c := x.c
  let q := c.te.dq.get .reset queue
  let n := q.size
  let d : FillDst := if dring then ringDst c dst n
    else
      match env.ownScratch (c.areg dst) n with
      | some off => ⟨off, [], c, []⟩
      | none => ⟨0, [.addressError], c, []⟩
  let s := max i.t c.te.localFree
  let m := cdiv n 144
  let errs := (if q.st = 2 then [] else [PErr.queueUnderflow]) ++ d.errs ++
    (if d.errs.contains .addressError then [] else c.landErrs env.step d.off n)
  if !errs.isEmpty then .bad x errs
  else
    let c := d.c.pendAll ((List.range m).map fun k => (⟨s + k, i, .queueChunk queue k (d.off + 144 * k)⟩ : Pend))
    let c := { c with te := { c.te with localFree := s + 4 + m } }
    { OpRes.at_ { x with c := c.incs env i [(incd, dst)] n } (s + 3 + m) with acts := d.acts ++ [.qEmpty queue] }

/-! ### Sends -/

/-- A send that waits for its start (R280). -/
def Core.queueSend (c : Core) (i : Iss) (k : SendKind) (src n : Nat) (cls : Option Nat) (dests : List Nat) : Core :=
  { c with te := { c.te with
      sends := c.te.sends ++ [⟨i.tid, i.eng, i.ctx, i.pc, k, src, n, [], 0, cls, dests, i.t, 0⟩] } }

/-- The valid credit registers for a core (R245). -/
def Core.creditFor (c : Core) (env : Env) (chip core : Nat) : List (Nat × Credit) :=
  c.te.credits.entries.filter fun e =>
    e.2.valid && e.2.core == core && (e.2.chip == chip || (env.isHere e.2.chip && env.isHere chip))

/-- Spend credit for `n` nonets to a core: `none` where it has not exactly one valid register, with enough (R245). -/
def Core.spend (c : Core) (env : Env) (chip core n : Nat) : Option Core :=
  match c.creditFor env chip core with
  | [(k, r)] =>
    if n ≤ r.credit then some { c with te := { c.te with credits := c.te.credits.write .reset k { r with credit := r.credit - n } } }
    else none
  | _ => none

/-- Spend credit to each of a list of cores of this chip. -/
def Core.spendAll (env : Env) (n : Nat) : List Nat → Core → Option Core
  | [], c => some c
  | k :: ks, c => match c.spend env 0xFFFF k n with | some c => spendAll env n ks c | none => none

/-- The grant offset of a credit register of another core, the one place of a control block that a remote write may reach
(R246): the core and the register. -/
def Env.grantPlace (env : Env) (a n : Nat) : Option (Nat × Nat) :=
  let here := env.isHere (chipOf a)
  if !env.inSystem (chipOf a) then none
  else
    match region (if here then env.absent else []) (localOf a) with
    | .ctl k o => if 0x3580 ≤ o && o < 0x3600 && o % 8 = 0 && n = 8 then some (k, (o - 0x3580) / 8) else none
    | _ => none

/-- Where a STORE goes (R102, R243, R246). -/
inductive StoreDst where
  | far (addr : Nat)
  | remote (chip core : Nat)
  | grant
  | bad
  deriving DecidableEq, Repr

/-- The destination of a STORE of `n` nonets (R103). -/
def storeDst (env : Env) (m : Mem) (a n : Nat) : StoreDst :=
  if env.farRange m a n then
    let l := alignDown (localOf a) 64
    if env.isHere (chipOf a) && env.sealed l n then .bad else .far (chipOf a * 2 ^ 44 + l)
  else
    match env.otherScratch a n with
    | some (k, _) => .remote (chipOf a) k
    | none => if (env.grantPlace a n).isSome then .grant else .bad

/-- STORE (R102, R103, R245, R578): it waits for its source read, and completes when its last nonet has landed. -/
def opStore (env : Env) (dst src : Nat) (incd incs : Bool) (n : Nat) (i : Iss) (x : Cx) : OpRes :=
  let c := x.c
  let a := c.areg dst
  let e := env.ownScratch (c.areg src) n
  let dest := storeDst env x.mem a n
  let spent := match dest with | .remote chip k => c.spend env chip k n | _ => some c
  let errs := (if n = 0 || env.partBlocks a n then [PErr.illegalSize] else []) ++
    (match e with | some s => c.rangeErrs s n | none => [.addressError]) ++
    (if dest = .bad then [.addressError] else []) ++ (if spent.isSome then [] else [.credit])
  if !errs.isEmpty then .bad x errs
  else
    let (a, cls) := match dest with | .far f => (f, 1) | _ => (a, 2)
    let c := (spent.getD c).queueSend i (.store a) (e.getD 0) n (some cls) []
    ⟨{ x with c := c.incs env i [(incs, src), (incd, dst)] n }, [], 1, none, [], none⟩

/-- MCAST (R283): one copy to every core of the set, each checked for credit; it completes when its source read ends. -/
def opMcast (env : Env) (dst src mset n : Nat) (i : Iss) (x : Cx) : OpRes :=
  let c := x.c
  if n = 0 then .bad x [.illegalSize]
  else
    let off := c.areg dst % scratchSize
    let dests := (c.te.msets.get [] mset).map (·.1)
    let a := env.ownScratch (c.areg src) n
    let errs := (if a.isSome && off + n ≤ scratchSize then [] else [PErr.addressError]) ++
      (match a with | some s => c.rangeErrs s n | none => [])
    match Core.spendAll env n dests c with
    | none => .bad x (.credit :: errs)
    | some c' =>
      if !errs.isEmpty then .bad x errs
      else ⟨{ x with c := c'.queueSend i (.mcast mset off) (a.getD 0) n (some 2) dests }, [], 1, none, [], none⟩

/-- Light sends that hold an entry of the light queue (R285). -/
def Te.lightCount (te : Te) : Nat :=
  te.lightq.length + (te.sends.filter fun s => match s.kind with | .light _ => true | _ => false).length

/-- LIGHT (R285): it waits in the light queue for its core's slot. -/
def opLight (env : Env) (src dcore n : Nat) (i : Iss) (x : Cx) : OpRes :=
  let c := x.c
  let a := env.ownScratch (c.areg src) n
  let errs := (if n = 0 || 64 ≤ n then [PErr.illegalSize] else []) ++
    (if c.te.lightCount = 4 then [.lightOverflow] else []) ++
    (if a.isSome && dcore < 144 && !(env.absent.contains dcore) then [] else [.addressError]) ++
    (match a with | some s => c.rangeErrs s n | none => [])
  if !errs.isEmpty then .bad x errs
  else ⟨{ x with c := c.queueSend i (.light dcore) (a.getD 0) n none [] }, [], 1, none, [], none⟩

/-! ### Starts (R280, R281, R350) -/

/-- SEND_START (R280, R281, R350): the first waiting send starts, where the buffer has room for it; the cycles for which its flow's start
positions held it are slip cycles. -/
def Cx.sendStart (x : Cx) (env : Env) : Cx :=
  match x.c.sendDue env, x.c.te.sends with
  | some s, d :: rest =>
    let x := x.runTo env (max s x.c.now)
    if !(x.reached s) || !(x.c.hasRoom d) then x
    else
      let c := { x.c with
        te := { x.c.te with sends := rest }
        st := x.c.st.addSlip (x.c.heldFor s (max d.ready x.c.te.sendFree)) }
      { x with c := c.startSend x.c.now d }
  | _, _ => x

/-- The first waiting send would start now and lacks room, or a larger one the room for its next access: the outbound stall of R281. -/
def Core.outboundBlocked (c : Core) (env : Env) : Bool :=
  c.sourceBlocked ||
    (match c.sendDue env, c.te.sends with
     | some s, d :: _ => decide (s ≤ c.now) && !c.hasRoom d
     | _, _ => false)

end Sys2Proof.Machine
end

