-- ==== Sys2Proof/Machine/OpeOps.lean ====
section
/-! DEFINITION. The outer-product engine's operations (R111 to R129), as what each does at its issue. -/

namespace Sys2Proof.Machine

/-! ### Descriptors and operands -/

/-- Descriptor `n`. -/
def Ope.desc (o : Ope) (n : Nat) : Desc := o.descs.get .reset n

/-- OSET (R114): L = 1. -/
def opOset (s h : Nat) (orient turn half : Bool) (start : Nat) (i : Iss) (x : Cx) : OpRes :=
  let o := x.c.ope
  .now i { x with c := { x.c with ope := { o with descs := o.descs.write .reset s ⟨h, orient, turn, half, start⟩ } } }

/-- The turn-buffer half of a descriptor (R114). -/
def Desc.thalf (d : Desc) : Bool := nbit d.h 0

/-- The format a descriptor's elements are read in. -/
def Core.descFmt (c : Core) (d : Desc) : Fmt :=
  if d.turn then (match c.ope.tag d.thalf with | some t => tbFmt t.fmt | none => .n9) else (c.handle d.h).fmt

/-- The handle conditions of R120 for `k` vectors from `start`. -/
def Handle.badTile (h : Handle) (orient : Bool) (start k : Nat) : Bool :=
  !h.valid || !h.fmt.isFloat || (orient && !h.skewed) ||
    (!h.rvalid && (List.range k).any fun v => decide (h.size < h.vecEnd orient (start + v)))

/-- A descriptor fails a check of R120 for a stream of `k` pairs. -/
def Core.badDesc (c : Core) (quad : Bool) (d : Desc) (k : Nat) : Bool :=
  decide (65535 < d.start) || (d.half && !quad) ||
    (if d.turn then (c.ope.tag d.thalf).isNone || decide (144 < d.start + k)
     else (c.handle d.h).badTile d.orient d.start k)

/-- An operand of a stream as its issue finds it: elements `first` to `first` + `n` − 1 of the vectors of a descriptor (R114, R118, R129). -/
def Core.opnd (c : Core) (d : Desc) (first n at_ span : Nat) : Opnd :=
  ⟨if d.turn then some (d.thalf, c.ope.tag d.thalf) else none, c.handle d.h, d.orient, d.start, first, n, at_, span⟩

/-! ### Streams -/

/-- Cycles per pair and group size of the widest operand (R109). -/
def rateOf (w : Nat) : Nat × Nat := if w ≤ 1 then (1, 1) else if w = 2 then (4, 2) else (16, 4)

/-- The rows of the array that make adds (R108, R121): with MSK the row mask as it stood when the stream reached the head,
however long it is then held (DEDUCED, log 136). -/
def Core.rowsOn (c : Core) (msk : Bool) : BitVec 144 :=
  if msk then ((c.eng 2).here.headMask.getD c.ope.mask) else BitVec.allOnes 144

/-- Advance descriptors by K (R117). -/
def Ope.advance (o : Ope) (ds : List Nat) (K : Nat) : Ope :=
  { o with descs := (dedup ds).foldl (fun m d => m.write .reset d { o.desc d with start := (o.desc d).start + K }) o.descs }

/-- Every word that a stream reads lies in a bank that answers (R241). -/
def OStream.wordsOn (w : OStream) (s : Scratch) : Bool :=
  (List.range w.k).all fun k => (List.range w.reads).all fun cyc => (w.accs k cyc).all fun a => s.wordsOn a.words

/-- A stream of K pairs (R110, R112, R117, R119, R122): its first pair enters in the issue cycle, and a swap that SWD asks for falls in the
cycle after the last add of the stream. -/
def opStream (shapeBad quad : Bool) (ps : List Probl) (ds : List Nat) (K : Nat) (rnd msk : Bool) (swd : Nat) (i : Iss) (x : Cx) : OpRes :=
  let c := x.c
  if shapeBad || ds.any (fun d => c.badDesc quad (c.ope.desc d) K) then .bad x [.illegalTile]
  else
    let (P, g) := rateOf (ps.foldl (fun n p => max n (max p.a.fmt.size p.b.fmt.size)) 1)
    let w : OStream := ⟨ps, K, P, g, rnd, c.rowsOn msk⟩
    let errs := (if w.wordsOn c.scr then [] else [PErr.addressError]) ++
      (if quad && decide (i.t ≤ c.ope.preloadTo) && c.ope.preloadTo != 0 then [.opeConflict] else [])
    if !errs.isEmpty then .bad x errs
    else
      let s := i.t + P * K + 4
      let swaps : List Pend := if swd = 0 then [] else [⟨s, i, .swap (decide (2 ≤ swd)) (swd == 3)⟩]
      let c := c.pendAll (⟨i.t, i, .pair w 0 0 (ps.map Probl.begin_)⟩ :: swaps)
      let due := if 2 ≤ swd then s + drainLatency c.profile - 1 else s - 1
      { OpRes.at_ { x with c := { c with ope := c.ope.advance ds K } } due with hold := P * K }

/-- MMA (R119). -/
def opMma (sa sb m n K : Nat) (rnd msk : Bool) (swd : Nat) (i : Iss) (x : Cx) : OpRes :=
  let bad := m == 0 || decide (144 < m) || n == 0 || decide (144 < n) || K == 0
  let o := x.c.ope
  opStream bad false [⟨x.c.opnd (o.desc sa) 0 m 0 144, x.c.opnd (o.desc sb) 0 n 0 144, 0, 1⟩] [sa, sb] K rnd msk swd i x

/-- The problem of quadrant `q` (R129). -/
def Core.quadProb (c : Core) (m n q : Nat) : Probl :=
  let da := c.ope.desc (2 * q)
  let db := c.ope.desc (2 * q + 1)
  ⟨c.opnd da (72 * b2n da.half) m (72 * (q / 2)) 72, c.opnd db (72 * b2n db.half) n (72 * (q % 2)) 72, q, q⟩

/-- MMAQ (R129). -/
def opMmaq (qmask m n K : Nat) (rnd msk : Bool) (swd : Nat) (i : Iss) (x : Cx) : OpRes :=
  let bad := m == 0 || decide (72 < m) || n == 0 || decide (72 < n) || K == 0
  let qs := setBitsOf 4 qmask
  opStream bad true (qs.map (x.c.quadProb m n)) (qs.flatMap fun q => [2 * q, 2 * q + 1]) K rnd msk swd i x

/-! ### Row mask -/

/-- OMASK (R120, R121): two words of a handle, L = 8. -/
def opOmask (h off : Nat) (i : Iss) (x : Cx) : OpRes :=
  let c := x.c
  let hd := c.handle h
  if !hd.valid || (!hd.rvalid && decide (hd.size < 8 * (off + 2))) then .bad x [.illegalTile]
  else
    let q0 := hd.at_ (8 * off) / 8
    let q1 := hd.at_ (8 * (off + 1)) / 8
    if !(c.scr.wordsOn [q0, q1]) then .bad x [.addressError]
    else .at_ { x with c := c.pendWr i i.t (.maskWords q0 q1) } (i.t + 7)

/-! ### Swap, clear and preload -/

/-- A swap in cycle `s` would fall after the first add of a pair of a group mode and no later than its last (R127). -/
def Core.insidePair (c : Core) (s : Nat) : Bool :=
  c.pend.any fun p => p.due == s && (match p.wr with | .adds _ sub _ => decide (1 ≤ sub) | _ => false)

/-- The shadow pipe is busy in the issue cycle `t`, in which a drain that SWD asks for may swap (R127). -/
def Core.pipeBusy (c : Core) (t : Nat) : Bool :=
  c.ope.busy t || c.pend.any fun p => p.due == t && (match p.wr with | .swap drn _ => drn | _ => false)

/-- SWAP (R122 to R124, R127): it swaps in its issue cycle. -/
def opSwap (drn clr last : Bool) (i : Iss) (x : Cx) : OpRes :=
  if x.c.pipeBusy i.t || x.c.insidePair i.t then .bad x [.opeConflict]
  else
    let first := i.t + drainLatency x.c.profile - 1
    let x := x.swap i.t drn clr i.ctx i.pc
    .at_ x (if drn then (if last then first + 143 else first) else i.t)

/-- OCLR (R125, R127, R131). -/
def opOclr (i : Iss) (x : Cx) : OpRes :=
  let o := x.c.ope
  if x.c.pipeBusy i.t then .bad x [.opeConflict]
  else .now i { x with c := { x.c with ope := { o with shadow := .zero, busyFrom := i.t, busyTo := i.t } } }

/-- PRELOAD (R120, R126, R127, R131): row r is read in i₀ + r and loaded in i₀ + 6 + r. -/
def opPreload (h start m : Nat) (i : Iss) (x : Cx) : OpRes :=
  let c := x.c
  let hd := c.handle h
  if m = 0 || 144 < m || hd.badTile false start m then .bad x [.illegalTile]
  else
    let errs := (if c.pipeBusy i.t then [PErr.opeConflict] else []) ++
      (if (List.range m).all fun r => c.scr.wordsOn (preWords hd (start + r)) then [] else [.addressError])
    if !errs.isEmpty then .bad x errs
    else
      let c := c.pendWr i i.t (.preRow hd start m 0)
      .at_ { x with c := { c with ope := { c.ope with busyFrom := i.t, busyTo := i.t + 149, preloadTo := i.t + m - 1 } } } (i.t + 149)

end Sys2Proof.Machine
end

