-- ==== Sys2Proof/Machine/MveOps.lean ====
section
/-! DEFINITION. The matrix-vector engine's operations (R144 to R155), as what each does at its issue. -/

namespace Sys2Proof.Machine

/-- The weight format of MCFG's FMT field (R146). -/
def mcfgFmt (n : Nat) : Fmt := match n with | 0 => .n9 | 1 => .n9e | _ => .n18

/-- MCFG (R145, R146): L = 1. -/
def opMcfg (fmt scale lanes estart : Nat) (i : Iss) (x : Cx) : OpRes :=
  if fmt = 3 then .bad x [.illegalMve]
  else
    .now i { x with c := { x.c with mve := { x.c.mve with
      cfg := ⟨mcfgFmt fmt, sgn 9 scale, min lanes 95 + 1, estart⟩ } } }

/-- HLOAD (R144, R145, R147, R226): `n` elements, read through port 2 from the issue cycle on. -/
def opHload (v h eoff n soff : Nat) (i : Iss) (x : Cx) : OpRes :=
  let c := x.c
  let hd := c.handle h
  if !hd.valid || hd.skewed || !(hd.fmt == .n9 || hd.fmt == .n9e || hd.fmt == .n18) then .bad x [.illegalMve]
  else
    let m := cdiv n (144 / hd.fmt.size)
    if !((List.range m).all fun k => c.scr.wordsOn (chunkWords hd n soff k fun _ => true)) then .bad x [.addressError]
    else .at_ { x with c := c.pendWr i i.t (.chunk v hd eoff n soff 0) } (i.t + 5 + m)

/-- MSTREAM (R148 to R153): K weight groups from the near stack over the core. -/
def opMstream (env : Env) (areg : Nat) (inc : Bool) (vsel : Nat) (solo : Bool) (K : Nat) (rnd emit : Bool) (i : Iss)
    (x : Cx) : OpRes :=
  let c := x.c
  let cfg := c.mve.cfg
  let n := K * cfg.groupNts
  match env.ownStack (c.areg areg) (alignUp n 64) with
  | none => .bad x [.addressError]
  | some l =>
    if x.mem.touchesMirror l (alignUp n 64) then .bad x [.addressError]
    else
      let s := max i.t c.te.nearFree
      let last := reqCycle s (K * cfg.fmt.size - 1)
      let st : MStream := { cfg := cfg, addr := l, groups := K
                            vecs := if solo then [vsel] else List.range (vsel + 1)
                            rnd := rnd, emit := emit, next := 0, start := s, lastReq := last, asked := 0, data := []
                            ctx := i.ctx, pc := i.pc }
      let c := { c with
        mve := { c.mve with streams := c.mve.streams ++ [st] }
        te := { c.te with nearFree := last + 1 } }
      { OpRes.at_ { x with c := c.incs env i [(inc, areg)] n } (last + (if emit then 106 else 100)) with
        hold := last + 1 - i.t }

/-- MPOP (R154, R155, R160, R227): `n` elements of the head entry are converted and written from i₀ + 4 on, those past the handle's
end converted only, and the entry at the head in the completion cycle is released. -/
def opMpop (env : Env) (h off n : Nat) (rnd : Bool) (i : Iss) (x : Cx) : OpRes :=
  let c := x.c
  let hd := c.handle h
  if !hd.valid || hd.skewed then .bad x [.illegalMve]
  else
    if c.mve.rqFill = 0 then .bad x [.rqUnderflow]
    else
      let v := c.mve.rqVec.get 0 c.mve.rqHead
      let w := hd.fmt.size
      let els := ((c.mve.rqRow c.mve.rqHead).take n).zipIdx.map fun e =>
        let r := storeFl .n36 hd.fmt hd.scale (rndOf rnd env.key (96 * v + e.2) e.1.idx) (ofN36 e.1.v)
        (e.2, hd.at_ (w * (96 * off + e.2)), r.1, e.1.p, r.2)
      let per := 144 / w
      let m := cdiv n per
      let (ins, out) := els.partition fun e => hd.inside (w * (96 * off + e.1)) w
      let part (l : List (Nat × Nat × Nat × Bool × NumFlags)) (k : Nat) := (l.filter fun e => e.1 / per == k).map (·.2)
      let wr := (List.range m).flatMap fun k =>
        (if (part ins k).isEmpty then [] else [(⟨i.t + 4 + k, i, .elems w h (part ins k)⟩ : Pend)]) ++
          [⟨i.t + 4 + k, i, .flags (stFlags (part out k))⟩]
      { OpRes.at_ { x with c := c.pendAll wr } (i.t + 3 + m) with acts := [.mpopRel] }

end Sys2Proof.Machine
end

