-- ==== Sys2Proof/Machine/Training.lean ====
section
/-! DEFINITION. The format selector (R207, R208) and the merge of its summaries (R209, R210), as functions of the statistics
and of a group's entry. -/

namespace Sys2Proof.Machine

/-- Elements of a buffer that are finite and nonzero. -/
def Stats.count (s : Stats) : Nat := s.total - s.zeros - s.nans - s.infs

/-- Elements counted at exponent `e` over some buffers: bin `b` counts at BASE + b (R207). -/
def histAt (l : List Stats) (e : Int) : Nat :=
  l.foldl (fun n s => if s.base ≤ e ∧ e < s.base + 32 then n + s.bins.get 0 (e - s.base).toNat else n) 0

/-- The low exponent: from `e`, with `c` elements counted so far, up to `top` (R207). -/
def lowFrom (l : List Stats) (n loss : Nat) (top : Int) : Nat → Int → Nat → Int
  | 0, e, _ => e
  | f + 1, e, c =>
    if c * 2 ^ loss ≤ n ∧ e < top then lowFrom l n loss top f (e + 1) (c + histAt l (e + 1)) else e

/-- The summary of some stats buffers (R207). -/
def summarise (loss : Nat) (l : List Stats) : GPend :=
  let n := l.foldl (fun n s => n + s.count) 0
  let nonfin := l.any fun s => decide (0 < s.nans + s.infs)
  if n = 0 then ⟨true, nonfin, false, 0, 0⟩
  else
    let top := l.foldl (fun t s => if s.valid then max t s.maxexp else t) (-4096)
    ⟨true, nonfin, true, top, lowFrom l n loss top 4500 (-256) (histAt l (-256))⟩

/-- scale(format, top) of R208, for N9 and N9e. -/
def selScale (h : Nat) (fmt : Nat) (top : Int) : Int :=
  let s := if fmt = 0 then top - 8 + h else top - 16 + h
  min (max s (-256)) 255

/-- The procedure of R208: `none` is keep, else the format's rank and the scale. -/
def selectFmt (cur h m : Nat) (p : GPend) : Option (Nat × Int) :=
  if p.nonfin then (if cur = 3 then none else some (2, 0))
  else if !p.any then none
  else
    let span := p.top - p.low
    let mr (k : Nat) : Int := if k < cur then m else 0
    if span ≤ 14 - h - mr 0 then some (0, selScale h 0 p.top)
    else if span ≤ 30 - h - mr 1 then some (1, selScale h 1 p.top)
    else if p.top ≤ 31 - h - mr 2 then some (2, 0)
    else if cur = 3 then none
    else some (2, 0)

/-- The merge of a group at a commit (R210): the entry afterwards, and whether MAXFMT lowered the choice. -/
def Group.commit (g : Group) (h m : Nat) (p : GPend) : Group × Bool :=
  if !g.valid || !p.valid then (g, false)
  else
    match selectFmt g.fmt h m p with
    | none => (g, false)
    | some (f, s) =>
      let low := decide (g.maxfmt < f)
      let f' := min f g.maxfmt
      let s' := if low then (if f' ≤ 1 then selScale h f' p.top else 0) else s
      ({ g with fmt := f', scale := s', widened := g.widened && !(decide (f' < g.fmt)) }, low)

/-- The next wider format of a widening (R214). -/
def Group.widen (g : Group) : Group :=
  if g.maxfmt ≤ g.fmt then g
  else if g.fmt = 0 && g.maxfmt = 1 then { g with fmt := 1, widened := true, widens := (g.widens + 1) % 2 ^ 36 }
  else
    { g with fmt := if g.fmt ≤ 1 then 2 else 3, scale := 0, widened := true, widens := (g.widens + 1) % 2 ^ 36 }

/-- The format and scale fields of every bound handle follow the group entries (R204, R214, R217). -/
def Core.followGroups (c : Core) : Core :=
  c.train.binds.entries.foldl (fun c b =>
    if b.2.valid then
      let g := c.train.groups.get .reset b.2.group
      let h := c.handles.get .reset b.1
      { c with handles := c.handles.write .reset b.1 { h with fmt := Fmt.ofCode g.fmt, scale := g.scale } }
    else c) c

end Sys2Proof.Machine
end

