-- ==== Sys2Proof/Machine/VeOps.lean ====
section
/-! DEFINITION. The vector engine's operations (R162 to R194, R207 to R209), as what each does at its issue. Group g of an operation is read in
i₀ + g and written in i₀ + L − 1 + g (R164): VeCore says what a group does. -/

namespace Sys2Proof.Machine

/-! ### Work through groups (R164) -/

/-- The rounding counter after an instruction that rounds in RND (R35). -/
def Ve.count (v : Ve) : Ve := if v.cfg.rnd then { v with rndCtr := (v.rndCtr + 1) % 2 ^ 36 } else v

/-- The operation counts as one that rounds (R35). -/
def VOp.counts : VOp → Bool
  | .cmp _ => false
  | o => o.rounds

/-- An operation of latency `lat` on `n` elements in groups of `lanes`, with the configuration it latches (R164, R171); it reads FMT and
writes `out`. -/
def Core.veWork (c : Core) (op : VOp) (lat lanes n : Nat) (out : Fmt) : VWork :=
  { op := op, cfg := c.ve.cfg, ctr := c.ve.rndCtr, d := 0, a := 0, b := 0, c := 0, bseg := false
    lanes := lanes, groups := cdiv n lanes, lat := lat, src := c.ve.cfg.fmt, out := out, sb := none, els := [], met := 0, mp := false }

/-- An elementwise operation over LEN in FMT. -/
def Core.veEach (c : Core) (op : VOp) (lat : Nat) : VWork := c.veWork op lat (lanesOf c.ve.cfg.fmt) c.ve.cfg.len c.ve.cfg.fmt

/-- A VE operation begins: its first group is due at once, and it holds the head for its groups (R164). -/
def veStart (i : Iss) (x : Cx) (w : VWork) : OpRes :=
  let c := x.c.pendWr i i.t (.group w 0)
  let c := if w.op.counts then { c with ve := c.ve.count } else c
  { OpRes.at_ { x with c := c } (i.t + w.lat + w.groups - 2) with hold := w.groups }

/-- The stats buffer of an instruction with SEN. -/
def senOf (sen : Bool) (sb : Nat) : Option Nat := if sen then some sb else none

/-! ### Configuration and pointers (R171, R172) -/

/-- The format of a two-bit VE field (R171, R178). -/
def vFmt (n : Nat) : Fmt := match n with | 0 => .n9 | 1 => .n9e | 2 => .n18 | _ => .n36

/-- VCFG. -/
def opVcfg (fmt : Nat) (rnd msk : Bool) (mslot len : Nat) (lcnt : Bool) (seg : Nat) (i : Iss) (x : Cx) : OpRes :=
  let v := x.c.ve
  if lcnt && v.vcntP then .bad x [.poisonedControl]
  else
    let n := if lcnt then v.vcnt else len
    .now i { x with c := { x.c with ve := { v with cfg := ⟨vFmt fmt, rnd, msk, mslot, max n 1, seg + 1, n == 0⟩ } } }

/-- VPTR. -/
def opVptr (p h : Nat) (orient : Bool) (off : Nat) (i : Iss) (x : Cx) : OpRes :=
  .now i { x with c := { x.c with ve := { x.c.ve with ptrs := x.c.ve.ptrs.write .reset p ⟨h, orient, off⟩ } } }

/-! ### Loads and stores (R173, R174) -/

/-- Pointer `p` names a handle that VLD and VST may not use (R170). -/
def Core.badPtr (c : Core) (p : VPtr) : Bool := !(c.handle p.h).valid || (p.orient && !(c.handle p.h).skewed)

/-- INC adds LEN to the pointer's OFF (R174). DESIGN CHOICE (log 153): past the 23 bits of OFF, which R174 does not treat, the sum wraps. -/
def Ve.inc (v : Ve) (n : Nat) (inc : Bool) : Ve :=
  if inc then
    let p := v.ptrs.get .reset n
    { v with ptrs := v.ptrs.write .reset n { p with off := (p.off + v.cfg.len) % 2 ^ 23 } }
  else v

/-- VLD. -/
def opVld (slot ptr : Nat) (inc : Bool) (i : Iss) (x : Cx) : OpRes :=
  let c := x.c
  let p := c.ve.ptrs.get .reset ptr
  if c.badPtr p then .bad x [.illegalVe]
  else
    veStart i { x with c := { c with ve := c.ve.inc ptr inc } }
      { c.veEach (.vld p (c.handle p.h)) 8 with d := slot, src := (c.handle p.h).fmt }

/-- VST. -/
def opVst (slot ptr : Nat) (inc sen : Bool) (sb : Nat) (i : Iss) (x : Cx) : OpRes :=
  let c := x.c
  let p := c.ve.ptrs.get .reset ptr
  if c.badPtr p then .bad x [.illegalVe]
  else
    veStart i { x with c := { c with ve := c.ve.inc ptr inc } }
      { c.veEach (.vst p (c.handle p.h) p.h) 6 with a := slot, out := (c.handle p.h).fmt, sb := senOf sen sb }

/-! ### Queue reads and the turn buffer (R175, R176) -/

/-- TQRD: rows ROW to ROW + n − 1 of an entry counted from the oldest held. DESIGN CHOICE (log 11): the entry is the one that ENT names at the issue. -/
def opTqrd (slot row n ent : Nat) (rel : Bool) (i : Iss) (x : Cx) : OpRes :=
  let c := x.c
  let f := c.ve.cfg.fmt
  let w := c.veWork (.tqrd row ((c.ope.tqHead + ent) % 4)) 4 (lanesOf f) (n * 144) f
  { veStart i x { w with d := slot, src := .n36 } with acts := if rel then [.tqRel] else [] }

/-- RQRD: the 96 elements of an entry, which ENT names at the issue (DESIGN CHOICE, log 11). -/
def opRqrd (slot ent : Nat) (rel : Bool) (i : Iss) (x : Cx) : OpRes :=
  let c := x.c
  let f := c.ve.cfg.fmt
  let w := c.veWork (.rqrd ((c.mve.rqHead + ent) % 8)) 4 (lanesOf f) 96 f
  { veStart i x { w with d := slot, src := .n36 } with acts := if rel then [.rqRel] else [] }

/-- TBW: rows ROW to ROW + n − 1 of a half; the half is tagged in the completion cycle. -/
def opTbw (slot : Nat) (half : Bool) (row n tf sc : Nat) (tag sen : Bool) (sb : Nat) (i : Iss) (x : Cx) : OpRes :=
  if tf = 3 then .bad x [.illegalVe]
  else
    let c := x.c
    let scale := if tf ≤ 1 then sgn 9 sc else 0
    let w := c.veWork (.tbw half row tf scale) 4 (lanesOf c.ve.cfg.fmt) (n * 144) (vFmt tf)
    let c := if tag then c.pendWr i (i.t + 2 + w.groups) (.tag half ⟨tf, scale⟩) else c
    veStart i { x with c := c } { w with a := slot, sb := senOf sen sb }

/-! ### Arithmetic (R177 to R180, R184) -/

/-- An elementwise operation on slots A and B. -/
def opBin (op : VOp) (d a b : Nat) (bseg : Bool) (i : Iss) (x : Cx) : OpRes :=
  veStart i x { x.c.veEach op 4 with d := d, a := a, b := b, bseg := bseg }

/-- VFMA: A × B + C rounded once. -/
def opVfma (d a b k : Nat) (bseg : Bool) (i : Iss) (x : Cx) : OpRes :=
  veStart i x { x.c.veEach .fma 6 with d := d, a := a, b := b, c := k, bseg := bseg }

/-- VSEL: the mask bit of C selects A when it is set, or poisoned. -/
def opVsel (d a b k : Nat) (bseg : Bool) (i : Iss) (x : Cx) : OpRes :=
  veStart i x { x.c.veEach .sel 4 with d := d, a := a, b := b, c := k, bseg := bseg }

/-- VCVT: the narrower of the two formats sets the lanes. -/
def opVcvt (d a tf sc : Nat) (sen : Bool) (sb : Nat) (i : Iss) (x : Cx) : OpRes :=
  let f := x.c.ve.cfg.fmt
  let w := x.c.veWork (.cvt (sgn 9 sc)) 4 (min (lanesOf f) (lanesOf (vFmt tf))) x.c.ve.cfg.len (vFmt tf)
  veStart i x { w with d := d, a := a, sb := senOf sen sb }

/-- VRED: the result of segment s is written in i₀ + 7 + ⌈its end ÷ W⌉, from N36 for a sum. -/
def opVred (d a rop : Nat) (i : Iss) (x : Cx) : OpRes :=
  let w := x.c.veEach (.red rop) 9
  veStart i x { w with d := d, a := a, src := if ropSums rop then .n36 else w.src }

/-- VTAB. -/
def opVtab (d a func : Nat) (der : Bool) (i : Iss) (x : Cx) : OpRes :=
  veStart i x { x.c.veEach (.tab func der) (tableLatency x.c.profile) with d := d, a := a }

/-- SUPD (R180): D ← A ± 2^E × B, A and D in N36 and B in N18. -/
def opSupd (d a b e : Nat) (neg : Bool) (i : Iss) (x : Cx) : OpRes :=
  let w := x.c.veWork (.supd (sgn 9 e) neg) 6 36 x.c.ve.cfg.len .n36
  veStart i x { w with d := d, a := a, b := b, src := .n36 }

/-! ### Compress and expand (R181, R182) -/

/-- VCMPR and VEXPD, with mask slot M. -/
def opMove (op : VOp) (d a m : Nat) (i : Iss) (x : Cx) : OpRes :=
  veStart i x { x.c.veEach op 8 with d := d, a := a, b := m }

/-! ### Statistics and the format selector (R187 to R190, R207 to R209) -/

/-- VSTAT. -/
def opVstat (a sb : Nat) (i : Iss) (x : Cx) : OpRes :=
  veStart i x { x.c.veEach .stat 1 with a := a, sb := some sb }

/-- SCLR: at the end of its issue cycle, after what is added in that cycle (R188). -/
def opSclr (sb base : Nat) (i : Iss) (x : Cx) : OpRes :=
  .now i { x with c := x.c.pendWr i i.t (.sclr sb (sgn 9 base)) }

/-- FSEL (R190, R207 to R209): L = 6. -/
def opFsel (env : Env) (h sb nb : Nat) (i : Iss) (x : Cx) : OpRes :=
  let c := x.c
  let hd := c.handle h
  if !hd.valid || !(hd.fmt == .n9 || hd.fmt == .n9e || hd.fmt == .n18) then .bad x [.illegalVe]
  else
    let bufs := (List.range (nb + 1)).map fun k => c.ve.stats.get .reset ((sb + k) % 16)
    if bufs.any (·.poisoned) then .bad x [.poisonedControl]
    else
      let s := summarise env.lossExp bufs
      let w1 := match selectFmt hd.fmt.code env.headroom env.margin s with
        | some (f, sc) => [(⟨i.t + 5, i, .handle h (Fmt.ofCode f) sc⟩ : Pend)]
        | none => []
      let w2 := match c.boundGroup h with
        | some g => [(⟨i.t + 5, i, .gpend g s⟩ : Pend)]
        | none => []
      .at_ { x with c := c.pendAll (w1 ++ w2) } (i.t + 5)

end Sys2Proof.Machine
end

