-- ==== Sys2Proof/Machine/MeOps.lean ====
section
/-! DEFINITION. The message engine (R292 to R321): its operations as what each does at its issue, the holds of R318, the
landing of messages and contributions, credit, and the combiner. -/

namespace Sys2Proof.Machine

/-- Replace an end. -/
def Core.setEnd (c : Core) (n : Nat) (e : MEnd) : Core := { c with me := { c.me with ends := c.me.ends.put n e } }

/-! ### Holds (R318) -/

/-- The ME is held on some ends in cycle `t`: BLOCKED and what it waits on; the first cycle of a hold on static-class ends records a slip
(R60, R318). A hold that is under way goes on, and so does that of a context which comes into turn again. -/
def Core.meHold (c : Core) (t kind bend mask : Nat) : Core :=
  if c.me.bkind != 0 then c
  else
    let g := c.eng 5
    let k := g.here
    let ends := setBitsOf 32 mask
    let slip := ends.all fun n => decide ((c.me.endOf n).cls ≤ 2)
    let c := { c with st := if slip && k.held.isNone then c.st.recordSlip 5 0 (ends.headD 0) k.pc else c.st }
    let es := ends.foldl (fun m n => m.put n { m.get .reset n with blocked := true }) c.me.ends
    let c := { c with me := { c.me with
      ends := es, bkind := kind, bend := bend, bmask := mask, bsince := t
      waits := ends.map fun n => ((c.me.endOf n).pchip, (c.me.endOf n).pcore) } }
    c.setEng 5 { g.setCtx g.cur { k with
      held := some (k.held.getD t), slipFrom := if k.held.isSome then k.slipFrom else t, scheduled := slip } with st := .waiting }

/-- The ME is held no more; the cycles are counted on session ends (R298, R318). -/
def Core.meFree (c : Core) (t : Nat) : Core :=
  if c.me.bkind = 0 then c
  else
    let n := t - c.me.bsince
    let es := (setBitsOf 32 c.me.bmask).foldl (fun m k =>
      let e := m.get .reset k
      m.put k { e with blocked := false, stalls := if e.session then satAdd (2 ^ 36 - 1) e.stalls n else e.stalls }) c.me.ends
    { c with me := { c.me with ends := es, bkind := 0, bend := 0, bmask := 0, waits := [] } }

/-- The wait of the ME's head is satisfied in cycle `t`: its flag is consumed and its hold ends, whether R318 holds it further or not
(R52, R60, R318). -/
def Core.meWait (c : Core) (t : Nat) (w : Word) : Core :=
  if (c.eng 5).here.waited then c
  else
    let c := c.consumeWait 5 t w
    let g := c.eng 5
    c.setEng 5 (g.setCtx g.cur { g.here with waited := true })

/-- What an ME instruction finds once its wait is satisfied: it fails a check, it is held or goes on later, or it goes on in a cycle. -/
inductive MeGo where
  | bad (x : Cx) (l : List PErr)
  | held (x : Cx)
  | go (x : Cx) (t : Nat)
  deriving DecidableEq, Repr

/-- An ME instruction at the head issues, unless R318 holds it. -/
def Cx.issueMe (x : Cx) (env : Env) (w : Word) (ready : Nat → Cx → MeGo) (body : Iss → Cx → OpRes) : Cx :=
  match x.atHead env 5 w with
  | .stop x => x
  | .ready x t =>
    match ready t { x with c := x.c.meWait t w } with
    | .bad x l => x.issueAt env 5 t w fun _ x => .bad x l
    | .held x => x
    | .go x t => ({ x with c := x.c.meFree t } : Cx).issueAt env 5 t w body

/-! ### Sending (R302, R307, R314) -/

/-- The source of a send of `len` words: an offset in the own scratchpad; the low three bits of the address are cleared
(R15, R307). LEN 0 reads no source. -/
def Core.wordSrc (c : Core) (env : Env) (areg len : Nat) : Option Nat :=
  if len = 0 then some 0 else env.ownScratch (alignDown (c.areg areg) 8) (8 * len)

/-- The checks of a send (R311). -/
def Core.sendErrs (c : Core) (env : Env) (role endn areg len : Nat) : List PErr :=
  (if (c.me.endOf endn).role ≠ role || 512 < len then [.illegalChannel] else []) ++
    (match c.wordSrc env areg len with
     | none => [.addressError]
     | some s => if len = 0 then [] else c.rangeErrs s (8 * len))

/-- The pad record of a send end of `p` words leaves in cycle `t`, in which its credit suffices (R302): it has no source read. -/
def Core.sendPad (c : Core) (env : Env) (endn p t : Nat) : Core :=
  let g := c.eng 5
  let e := c.me.endOf endn
  let kind := SendKind.pad endn p e.pos
  let d : Send := ⟨c.nextTid, 5, g.cur, g.here.pc, kind, 0, 0, [], 0, none, [], t, t⟩
  let c := ({ c with nextTid := c.nextTid + 1 } : Core).setEnd endn { e with credit := e.credit - p, pos := 0 }
  let s := c.flowStart env kind t
  if c.passes kind || (decide (s = t) && c.hasRoom d) then c.startSend s d
  else { c with te := { c.te with sends := c.te.sends ++ [d] } }

/-- MSEND's placement (R302): the pad record goes as soon as its credit suffices, and the message no earlier than the next
cycle. -/
def msendReady (env : Env) (endn areg len : Nat) (t : Nat) (x : Cx) : MeGo :=
  let errs := x.c.sendErrs env 1 endn areg len
  let e := x.c.me.endOf endn
  let m := len + 1
  let go (t : Nat) (x : Cx) : MeGo :=
    if (x.c.me.endOf endn).credit < m then .held { x with c := x.c.meHold t 1 endn (2 ^ endn) } else .go x t
  if !errs.isEmpty then .bad x errs
  else if e.cap < m then .bad x [.ringOverflow]
  else if e.cap < e.pos + m then
    let p := e.cap - e.pos
    if e.credit < p then .held { x with c := x.c.meHold t 1 endn (2 ^ endn) }
    else
      let c := x.c.sendPad env endn p t
      let c := c.setEng 5 { c.eng 5 with headFree := t + 1 }
      let x := ({ x with c := c } : Cx).runTo env (t + 1)
      if x.reached (t + 1) then go (t + 1) x else .held x
  else go t x

/-- MSEND (R302, R307): it completes when its source read ends. -/
def opMsend (env : Env) (endn areg : Nat) (inc : Bool) (len tag : Nat) (i : Iss) (x : Cx) : OpRes :=
  let c := x.c
  let e := c.me.endOf endn
  let m := len + 1
  let c1 := c.setEnd endn { e with
    credit := e.credit - m, pos := if e.cap = 0 then 0 else (e.pos + m) % e.cap, seq := (e.seq + 1) % 2048
    count := if e.session then satAdd (2 ^ 36 - 1) e.count 1 else e.count }
  let c1 := c1.queueSend i (.msg endn tag len e.seq e.pos) ((c.wordSrc env areg len).getD 0) (8 * len) none []
  ⟨{ x with c := if inc then c1.incAreg i areg (8 * len) else c1 }, [], 1, none, [], none⟩

/-- MCOMB's credit (R314). -/
def mcombReady (env : Env) (endn areg len : Nat) (t : Nat) (x : Cx) : MeGo :=
  let errs := x.c.sendErrs env 3 endn areg len
  if !errs.isEmpty then .bad x errs
  else if (x.c.me.endOf endn).credit = 0 then .held { x with c := x.c.meHold t 3 endn (2 ^ endn) }
  else .go x t

/-- MCOMB (R314). -/
def opMcomb (env : Env) (endn areg : Nat) (inc : Bool) (len : Nat) (i : Iss) (x : Cx) : OpRes :=
  let c := x.c
  let c1 := c.setEnd endn { c.me.endOf endn with credit := 0 }
  let c1 := c1.queueSend i (.comb endn) ((c.wordSrc env areg len).getD 0) (8 * len) none []
  ⟨{ x with c := if inc then c1.incAreg i areg (8 * len) else c1 }, [], 1, none, [], none⟩

/-! ### Receiving (R303, R305, R308 to R310) -/

/-- The end an MRECV selects among those in its mask with a receivable message (R308). -/
def Me.select (m : Me) (mask : Nat) (rot : Bool) : Option Nat :=
  let l := (setBitsOf 32 mask).filter fun n => (m.endOf n).headMsg.isSome
  if rot then ((List.range 32).map fun k => (m.rot + 1 + k) % 32).find? fun n => l.contains n
  else l.foldl (fun b n => match b with
    | some k => if (m.endOf k).prio < (m.endOf n).prio then some n else some k
    | none => some n) none

/-- MRECV's check and hold (R308, R311). -/
def mrecvReady (mask : Nat) (rot poll : Bool) (t : Nat) (x : Cx) : MeGo :=
  if (setBitsOf 32 mask).any fun n => (x.c.me.endOf n).role != 2 then .bad x [.illegalChannel]
  else if poll || (x.c.me.select mask rot).isSome then .go x t
  else .held { x with c := x.c.meHold t 2 0 mask }

/-- The receive record of an end's head message (R309). -/
def Core.rxOf (c : Core) (n : Nat) : Rx :=
  match (c.me.endOf n).headMsg with
  | some r => ⟨true, r.hp, n, r.tag, r.seq, r.len, (c.handle (c.me.endOf n).handle).base + 8 * (r.pos + 1)⟩
  | none => .reset

/-- MRECV: RX is written in the cycle after the selection (R306, R309). -/
def opMrecv (mask : Nat) (rot : Bool) (i : Iss) (x : Cx) : OpRes :=
  let c := x.c
  match c.me.select mask rot with
  | none => .at_ { x with c := c.pendWr i (i.t + 1) (.rx .reset) } (i.t + 1)
  | some n =>
    let r := c.rxOf n
    let c := if rot then { c with me := { c.me with rot := n } } else c
    .at_ { x with c := c.pendWr i (i.t + 1) (.rx r) } (i.t + 1)

/-- The cycle in which credit returned from cycle `t` on arrives (R305): 0 where it is not fixed. -/
def MEnd.returnDue (e : MEnd) (t : Nat) : Nat := if e.cls = 3 then 0 else t + 1 + e.dly

/-- MREL (R305, R310). -/
def opMrel (endn : Nat) (i : Iss) (x : Cx) : OpRes :=
  let c := x.c
  let e := c.me.endOf endn
  if e.role ≠ 2 then .bad x [.illegalChannel]
  else
    match e.headMsg with
    | none => .bad x [.channelUnderflow]
    | some r =>
      let e' := { e with
        recs := e.dropHead, pos := if e.cap = 0 then 0 else (r.pos + r.words) % e.cap, seq := (r.seq + 1) % 2048
        count := if e.session then satAdd (2 ^ 36 - 1) e.count 1 else e.count }
      .now i (({ x with c := c.setEnd endn e' } : Cx).emit [.credit e.pchip e.pcore e.pend r.words (e.returnDue i.t)])

/-- PAD_CONSUMED (R303, R305): the pad record at the head is consumed in the cycle after it has reached it, and its credit returns. -/
def Cx.padConsumed (x : Cx) (env : Env) (endn : Nat) : Cx :=
  let y := x.runTo env (x.c.now + 1)
  let e := y.c.me.endOf endn
  match e.headRec with
  | some r =>
    if r.pad && y.reached (x.c.now + 1) then
      ({ y with c := y.c.setEnd endn { e with recs := e.dropHead, pos := 0 } } : Cx).emit
        [.credit e.pchip e.pcore e.pend r.words (e.returnDue y.c.now)]
    else y
  | none => x

/-- CREDIT_RETURN (R305, R317): credit on its way arrives and can be used from the following cycle. -/
def Cx.creditReturn (x : Cx) (env : Env) (endn : Nat) : Cx :=
  match (x.c.me.endOf endn).ret with
  | [] => x
  | (_, due) :: _ =>
    let x := x.runTo env (due + 1)
    let e := x.c.me.endOf endn
    match e.ret with
    | [] => x
    | (n, _) :: rs =>
      if x.reached (due + 1) then
        { x with c := x.c.setEnd endn { e with ret := rs, credit := if e.role = 3 then 1 else min e.cap (e.credit + n) } }
      else x

/-! ### Landing (R304, R314) -/

/-- The ring record of a landing at word `pos` whose header word is `w`. -/
def recOf (pos : Nat) (w : Word) (hp : Bool) : MsgRec :=
  if bits w 71 70 = 1 then ⟨pos, bits w 9 0 + 1, true, 0, 0, bits w 9 0, hp⟩
  else ⟨pos, bits w 9 0 + 1, false, bits w 68 61, bits w 60 50, bits w 9 0, hp⟩

/-- The word at which a record of another chip's sender stands: after the one that came before it (R302). -/
def MEnd.nextPos (e : MEnd) : Nat :=
  match e.recs.getLast? with
  | some l => if l.pad then 0 else if e.cap = 0 then 0 else (l.pos + l.words) % e.cap
  | none => e.pos

/-- The word at which a record of this chip stands in its ring (R302). -/
def SendKind.pos : SendKind → Nat
  | .msg _ _ _ _ pos => pos
  | .pad _ _ pos => pos
  | _ => 0

/-- A record of class 0 or 1 of core `src` lands in the receive ring of an end (R303, R304): group k as a static write in cycle `due` + k, and the
record is receivable in the cycle after the last. -/
def Cx.landStatic (x : Cx) (env : Env) (src endn due : Nat) (d : Send) : Cx :=
  let c := x.c
  let pos := d.kind.pos
  let r := recOf pos (BitVec.ofNat 72 (ntVal (d.data.take 8))) (anyPoison (d.data.take 8))
  let off := (c.handle (c.me.endOf endn).handle).base + 8 * pos
  let n := if r.pad then 8 else d.total
  match c.writeRefused env.step off n with
  | some er => x.emit [.err er 5 0 0 endn]
  | none =>
    let t := max due c.now
    let i : Iss := ⟨t, c.nextTid, 5, 0, 0⟩
    let m := cdiv n 144
    let lands := (List.range m).map fun j => (⟨t + j, i, .await src d.tid j (off + 144 * j)⟩ : Pend)
    { x with c := ({ c with nextTid := c.nextTid + 1 } : Core).pendAll (lands ++ [⟨t + m - 1, i, .record endn r⟩]) }

/-- A record of class 3 lands in the receive ring of an end at word `pos`, at once and through the background slot (R303, R304). -/
def Cx.landRecord (x : Cx) (env : Env) (endn pos : Nat) (data : List PNt) : Cx :=
  let c := x.c
  let e := c.me.endOf endn
  let r := recOf pos (BitVec.ofNat 72 (ntVal (data.take 8))) (anyPoison (data.take 8))
  let off := (c.handle e.handle).base + 8 * pos
  let n := if r.pad then 8 else data.length
  let d := data.take n
  match c.writeRefused env.step off n with
  | some er => x.emit [.err er 5 0 0 endn]
  | none =>
    let (c, effs) := c.bgWrite off d
    ({ x with c := c.setEnd endn { c.me.endOf endn with recs := (c.me.endOf endn).recs ++ [r] } } : Cx).emit effs

/-- CONTRIBUTION_ARRIVAL (R314, R315): a contribution waits in the staging store; its size must be that of its queue. -/
def Cx.arrive (x : Cx) (q src due : Nat) (data : List PNt) : Cx :=
  let k := x.c.me.comb.get .reset q
  if !k.valid || data.length ≠ 8 * (k.size + 1) then x.emit [.err .illegalChannel 5 0 0 q]
  else
    { x with c := { x.c with me := { x.c.me with
        staging := x.c.me.staging ++ [⟨q, src, if due = 0 then x.c.now else due, data⟩]
        comb := x.c.me.comb.put q { k with arrived := k.arrived + 1 } } } }

/-! ### The combiner (R316, R317) -/

/-- COMBINE (R316): the combiner comes to the end of the contribution that it takes. -/
def Cx.combine (x : Cx) (env : Env) : Cx :=
  match x.c.me.combDue env.free with
  | none => x
  | some d => x.runTo env (d + 1)

/-- MCTAKE (R311, R317): the result lands from i₀ + 4 on; the queue is reopened in the completion cycle. -/
def opMctake (env : Env) (q areg : Nat) (inc : Bool) (i : Iss) (x : Cx) : OpRes :=
  let c := x.c
  let k := c.me.comb.get .reset q
  let n := 8 * (k.size + 1)
  if !k.complete then .bad x [.combineUnderflow]
  else
    match env.ownScratch (alignDown (c.areg areg) 8) n with
    | none => .bad x [.addressError]
    | some off =>
      let data := k.sum.flatMap fun e => ntsOf k.fmt.size e.1 e.2
      let errs := c.landErrs env.step off n
      if !errs.isEmpty then .bad x errs
      else
        let m := cdiv n 144
        let lands := (List.range m).map fun j => (⟨i.t + 4 + j, i, .scr (off + 144 * j) ((data.drop (144 * j)).take 144)⟩ : Pend)
        let c := c.pendAll lands
        { OpRes.at_ { x with c := if inc then c.incAreg i areg n else c } (i.t + 3 + m) with acts := [.comb q] }

end Sys2Proof.Machine
end

