-- ==== Sys2Proof/Machine/Net.lean ====
section
/-! DEFINITION. The on-chip network: its rings, routes and delays, the slots that static flows own, and chip coordinates and routes
(R344 to R350, R352, R362 to R365, R367). -/

namespace Sys2Proof.Machine

/-! ### Rings (R344, R346) -/

/-- A place on the network: the router in a row and column of the core grid, or, in column 12, the station of a row. -/
structure NetPos where
  row : Nat
  col : Nat
  deriving DecidableEq, Repr

/-- The router of a core (R10). -/
def NetPos.ofCore (c : Nat) : NetPos := ⟨c / 12, c % 12⟩

/-- The station of a row: it stands after column 11 and before column 0. -/
def NetPos.station (r : Nat) : NetPos := ⟨r, 12⟩

/-- The columns of a row ring, in the order of its way east; the router of a disabled column is bypassed. -/
def rowRing (dcol : Nat) : List Nat := (List.range 13).filter (· != dcol)

/-- The rows of a column ring, in the order of its way north. South is the way to lower rows. DEDUCED (log 127): the example of chapter 13
goes from row 6 south to row 1. -/
def colRing : List Nat := List.range 12

/-- The outputs of a router or station (R347). -/
inductive NetOut where
  | east | west | north | south | eject | switch
  deriving DecidableEq, Repr

/-- The number of an output: 6 to a place. -/
def NetPos.output (p : NetPos) (o : NetOut) : Nat :=
  6 * (13 * p.row + p.col) +
    (match o with | .east => 0 | .west => 1 | .north => 2 | .south => 3 | .eject => 4 | .switch => 5)

/-- The way round a ring of `n` from place `a` to place `b`: up or down, and the hops. The shorter way is taken, and where both are equal,
up where `up` says so (R345). -/
def ringWay (up : Bool) (n a b : Nat) : Bool × Nat :=
  let p := (b + n - a) % n
  if p = 0 then (up, 0)
  else if p < n - p || (p == n - p && up) then (true, p)
  else (false, n - p)

/-- The places of a leg, before each of its hops, and the way it goes. -/
def legPlaces (ring : List Nat) (up : Bool) (a b : Nat) : Bool × List Nat :=
  let i := ring.findIdx (· == a)
  let n := ring.length
  let w := ringWay up n i (ring.findIdx (· == b))
  (w.1, (List.range w.2).map fun k => ring.getD (if w.1 then (i + k) % n else (i + n - k) % n) 0)

/-- One output that a route uses: its place, the output, the input that it forwards (R347), and the cycles from the start of the route. -/
structure NetHop where
  place : NetPos
  out : NetOut
  src : Nat
  after : Nat
  deriving DecidableEq, Repr

/-- The leg along a row (R345): a hop takes 2 cycles. -/
def rowLeg (dcol row a b t0 first : Nat) : List NetHop :=
  let l := legPlaces (rowRing dcol) true a b
  l.2.zipIdx.map fun e => ⟨⟨row, e.1⟩, if l.1 then .east else .west, if e.2 = 0 then first else if l.1 then 2 else 1, t0 + 2 * e.2⟩

/-- The leg along a column. -/
def colLeg (col a b t0 first : Nat) : List NetHop :=
  let l := legPlaces colRing false a b
  l.2.zipIdx.map fun e => ⟨⟨e.1, col⟩, if l.1 then .north else .south, if e.2 = 0 then first else if l.1 then 4 else 3, t0 + 2 * e.2⟩

/-- The input at which a leg arrives. -/
def NetOut.into : NetOut → Nat
  | .east => 2
  | .west => 1
  | .north => 4
  | .south => 3
  | .eject => 0
  | .switch => 5

/-- A route (R345), as the outputs it uses in order: from a core along its column and then the row, from a station along its row and then the
column; a change of ring adds a cycle. -/
def route (dcol : Nat) (a b : NetPos) : List NetHop :=
  let first := if a.col = 12 then 5 else 0
  let l1 := if a.col = 12 then rowLeg dcol a.row a.col b.col 0 first else colLeg a.col a.row b.row 0 first
  let in1 := match l1.getLast? with | some h => h.out.into | none => first
  let t1 := 2 * l1.length + (if l1.isEmpty then 0 else 1)
  let l2 := if a.col = 12 then colLeg b.col a.row b.row t1 in1 else rowLeg dcol b.row a.col b.col t1 in1
  let in2 := match l2.getLast? with | some h => h.out.into | none => in1
  let t2 := if l2.isEmpty then 2 * l1.length else t1 + 2 * l2.length
  l1 ++ l2 ++ [⟨b, if b.col = 12 then .switch else .eject, in2, t2⟩]

/-- The on-chip delay of a route: 2 × hops + turns (R345). -/
def routeDelay (dcol : Nat) (a b : NetPos) : Nat := match (route dcol a b).getLast? with | some h => h.after | none => 0

/-! ### Chip coordinates and routes (R354, R364, R365) -/

/-- Coordinates of a chip (R364): remainders of successive quotients by the dimension sizes. -/
def coordsOf : List Nat → Nat → List Nat
  | [], _ => []
  | n :: ns, i => i % max 1 n :: coordsOf ns (i / max 1 n)

/-- Product of the dimension sizes. -/
def chipCount (sizes : List Nat) : Nat := sizes.foldl (fun p n => p * max 1 n) 1

/-- The first dimension in which two coordinates differ, with its size and the two values. -/
def firstDiff : Nat → List Nat → List Nat → List Nat → Option (Nat × Nat × Nat × Nat)
  | d, n :: ns, a :: as, b :: bs => if a = b then firstDiff (d + 1) ns as bs else some (d, n, a, b)
  | _, _, _, _ => none

/-- The port by which a flit from chip `a` to chip `b` leaves (R365); `none`: they are one. -/
def chipPort (sizes : List Nat) (a b : Nat) : Option Nat :=
  match firstDiff 0 sizes (coordsOf sizes a) (coordsOf sizes b) with
  | none => none
  | some (d, n, x, y) =>
    let plus := (y + n - x) % n
    some (if plus ≤ n - plus then 2 * d + 1 else 2 * d)

/-- The chip at the other end of a port's cable (R354). -/
def chipBeyond (sizes : List Nat) (a p : Nat) : Nat :=
  let d := p / 2
  let n := max 1 (sizes.getD d 1)
  let x := (coordsOf sizes a).getD d 0
  let y := if p % 2 = 1 then (x + 1) % n else (x + n - 1) % n
  let w := (sizes.take d).foldl (fun k m => k * max 1 m) 1
  a - x * w + y * w

/-- The chips of a flit's route and the port by which it leaves each, in order. -/
def chipRoute (sizes : List Nat) (b : Nat) : Nat → Nat → List (Nat × Nat)
  | 0, _ => []
  | f + 1, a => match chipPort sizes a b with
    | none => []
    | some p => (a, p) :: chipRoute sizes b f (chipBeyond sizes a p)

/-- The port at which a flit arrives that has left the chip before through port `p` (R354). -/
def portOpposite (p : Nat) : Nat := if p % 2 = 1 then p - 1 else p + 1

/-! ### Static flows (R347 to R350, R352, R360, R367) -/

/-- A static flow as a SLOTS section declares it (R417): where its sends enter the network, its number, class and start positions, how many slots
each start takes, where it leaves the network, its destination chip and core where it is of class 2, and its DLY. -/
structure StaticFlow where
  src : NetPos
  flow : Nat
  cls : Nat
  starts : List Nat
  groups : Nat
  dsts : List NetPos
  chip : Nat
  core : Nat
  dly : Nat
  deriving DecidableEq, Repr

/-- The slots that a flow owns, as output × 4,096 + position and the input that the output forwards in them (R347, R349). A multicast
makes its copies where several outputs name one input. -/
def StaticFlow.slots (f : StaticFlow) (dcol frame : Nat) : List (Nat × Nat) :=
  f.dsts.flatMap fun d => (route dcol f.src d).flatMap fun h =>
    f.starts.flatMap fun p => (List.range f.groups).map fun k =>
      (h.place.output h.out * 4096 + (p + h.after + k) % max 1 frame, h.src)

/-- The word of a slot-table entry that is owned (R347). -/
def slotEntry (src : Nat) : Nat := 256 + 32 * src

/-- The slot tables that some flows give (R417). -/
def slotTables (dcol frame : Nat) (l : List StaticFlow) : SMap Nat :=
  l.foldl (fun m f => (f.slots dcol frame).foldl (fun m e => m.put e.1 (slotEntry e.2)) m) .empty

/-- What an output forwards in cycle `t` of its program: the input that its entry names; `none`: Open traffic (R347). -/
def forwards (tables : SMap Nat) (frame output t : Nat) : Option Nat :=
  let w := tables.get 0 (output * 4096 + t % max 1 frame)
  if nbit w 8 then some (nbits w 7 5) else none

/-- The delay of a Scheduled route (R367): the legs on the two chips, and the declared latency `lat` of each chip's port that it crosses. Both legs
are taken with this chip's disabled column (log 149). -/
def scheduledDelay (dcol : Nat) (sizes : List Nat) (lat : Nat → Nat → Nat) (src : NetPos) (chip : Nat) (b core : Nat) : Nat :=
  let ports := chipRoute sizes b 255 chip
  let hops := ports.length
  let first := (ports.headD (0, 0)).2
  let last := portOpposite (ports.getLastD (0, 0)).2
  let sum := ports.foldl (fun n p => n + lat p.1 p.2) 0
  routeDelay dcol src (.station first) + 4 + sum + 8 * (hops - 1) + 4 + routeDelay dcol (.station last) (.ofCore core) + 6

/-- The DLY that a flow's route gives it (R352): its on-chip delay in class 1, and the delay of Scheduled delivery where it leaves its core
for another chip in class 2. The other flows declare none that is compared. -/
def StaticFlow.delay (f : StaticFlow) (dcol : Nat) (sizes : List Nat) (lat : Nat → Nat → Nat) (chip : Nat) : Option Nat :=
  if f.cls = 1 then (f.dsts.head?).map (routeDelay dcol f.src)
  else if f.cls = 2 && f.src.col < 12 && f.flow < 32 then some (scheduledDelay dcol sizes lat f.src chip f.chip f.core)
  else none

/-- Two flows own one output in one slot (R349). -/
def flowsMeet (dcol frame : Nat) (a b : StaticFlow) : Bool :=
  let l := (b.slots dcol frame).map (·.1)
  (a.slots dcol frame).any fun e => l.contains e.1

/-- The first flow that another one before it meets. -/
def firstMeeting (dcol frame : Nat) : List StaticFlow → List StaticFlow → Option StaticFlow
  | _, [] => none
  | seen, f :: r => if seen.any (flowsMeet dcol frame f) then some f else firstMeeting dcol frame (seen ++ [f]) r

/-- More than 64 Scheduled flits cross one port direction in 144 consecutive cycles (R362): `l` lists their ports and cycles. -/
def tooDense (l : List (Nat × Nat)) : Bool :=
  l.any fun e => decide (64 < (l.filter fun f => f.1 == e.1 && decide (e.2 ≤ f.2) && decide (f.2 < e.2 + 144)).length)

end Sys2Proof.Machine
end

