-- ==== Sys2Proof/Machine/ChipState.lean ====
section
/-! DEFINITION. The records of the chip outside its cores: fuses, programs, the fabric, the host attachment, sessions, Irair,
the management controllers, power, clocks, freeze and vetting. -/

namespace Sys2Proof.Machine

/-! ### The part (R1, R10, R520, R543, R546) -/

/-- What the fuses and the factory fix: grade, stepping, disabled column (15: none), serial number, the controller that strap
names, key hashes, revoked key slots, the security-version counter, the identity key and the hash of its public half, the
digest of Yarrow, and the factory MAC addresses. -/
structure Fuse where
  grade132 : Bool
  a1 : Bool
  dcol : Nat
  serial : List (BitVec 8)
  strapOff : Bool
  keyHash : List Nat
  revoked : Nat
  svn : Nat
  idKey : Nat
  idKeyHash : Nat
  yarrow : Nat
  macs : List Nat
  t1sMac : Nat
  deriving DecidableEq, Repr

/-- The cores of the disabled column (R10). -/
def Fuse.absent (f : Fuse) : List Nat := if f.dcol < 12 then (List.range 12).map fun r => 12 * r + f.dcol else []

/-! ### Programs (R401 to R418, R421 to R447) -/

/-- A whole-machine stall of a program (R424), by its cause and by when it ends. -/
inductive Stall where
  | startup
  | feed (core eng ctx : Nat)
  | outbound (core : Nat)
  | reread (left : Nat)
  | rest (left : Nat)
  | link (station flow word : Nat)
  | hold
  | commit
  | vetting
  | gap
  deriving DecidableEq, Repr

/-- A stream section of an image: its core, engine and context, the far address of its first instruction and its count
(R404). -/
structure Stream where
  core : Nat
  eng : Nat
  ctx : Nat
  base : Nat
  count : Nat
  deriving DecidableEq, Repr

/-- An entry of a row station's flow table (R360): where a Scheduled flow lands. -/
structure Flow where
  station : Nat
  flow : Nat
  core : Nat
  base : Nat
  toRing : Bool
  endn : Nat
  deriving DecidableEq, Repr

/-- What the SLOTS section declares (R347, R360, R417): FRAME, the static flows, the slot tables the loader builds from them by output ×
4,096 + position, the flow tables, the declared latency of each port with Scheduled flows, and the largest declared path latency from the
coordinator to a member (R374). -/
structure SlotDecl where
  frame : Nat
  statics : List StaticFlow
  tables : SMap Nat
  flows : List Flow
  lat : List (Nat × Nat)
  path : Nat
  deriving DecidableEq, Repr

/-- No SLOTS section. -/
def SlotDecl.none : SlotDecl := ⟨144, [], .empty, [], [], 0⟩

/-- The outputs that the static flows own (R348). -/
def SlotDecl.outputs (d : SlotDecl) : List Nat := dedup (d.tables.entries.map fun e => e.1 / 4096)

/-- A batch declaration (R334): the base model, the slots, the cores with their batch handles, the commit core and handle. -/
structure Batch where
  base : Nat
  slots : Nat
  handles : List (Nat × Nat)
  ccore : Nat
  chandle : Nat
  deriving DecidableEq, Repr

/-- The settings a program uses until its next step boundary (R211, R212, R290, R343, R422, R462, R517). -/
structure Latched where
  free : Bool
  policy : Nat
  widenLimit : Nat
  headroom : Nat
  lossExp : Nat
  margin : Nat
  switchAfter : Nat
  holdEmpty : Bool
  deriving DecidableEq, Repr

/-- A START or STOP entry that waits for its program: its host queue and TAG (R387). -/
structure Ticket where
  queue : Nat
  tag : Nat
  deriving DecidableEq, Repr

/-- The state of a loaded program. `base` is the chip cycle of its start less its stall cycles, so that its cycle count is the
chip cycle count less `base` (R347); `t0` is its cycle count at the step's first cycle, and `stepNo` counts the steps it has committed since its start. `errElse` says that another chip has raised a trigger in
this attempt that counts against the budget (R446). -/
structure Prog where
  digest : Nat
  memDigest : Nat
  image : Nat
  size : Nat
  profile : Nat
  feeder : Bool
  train : Bool
  multi : Bool
  cores : List Nat
  members : List Nat
  streams : List Stream
  marks : List (Nat × Nat × Nat × Nat)
  slots : SlotDecl
  inputs : List (Nat × Nat)
  nearStacks : List Nat
  tokens : Nat
  batch : Option Batch
  starting : Bool
  running : Bool
  stopping : Bool
  start : Option Ticket
  stop : Option Ticket
  base : Nat
  t0 : Nat
  lat : Latched
  seed : Nat
  firstStep : Nat
  step : Nat
  stepNo : Nat
  committed : Option Nat
  stalls : List Stall
  sched : Nat
  stallCycles : Nat
  stepStall : Nat
  lost : Nat
  lastStep : Nat
  errRemounts : Nat
  wideRemounts : Nat
  stepErr : Nat
  stepWide : Nat
  trigs : List Trig
  remounting : Bool
  widenReq : List Nat
  overLogged : List Nat
  signals : List (Nat × Nat)
  batches : Nat
  slotSess : List (Nat × Nat)
  ready : List Nat
  readySent : Bool
  release : Option Nat
  doneSent : Bool
  done : List Nat
  stepped : List Nat
  ended : List Nat
  merged : List GroupSummary
  results : List GroupResult
  replayAt : Option Nat
  errElse : Bool
  deriving DecidableEq, Repr

/-! ### The fabric (R353 to R378) -/

/-- A flit that waits in a port to leave, and the port and credit class of the receive buffer that it holds meanwhile where it is in transit
(R361, R363, R366); `by_` is the core, engine, context and program counter of the instruction that sent it, where it is an Open message or contribution of
this chip (R371). -/
structure Queued where
  flit : Flit
  owes : Option (Nat × Nat)
  by_ : Option (Nat × Nat × Nat × Nat)
  deriving DecidableEq, Repr

/-- A Jizia port: its state, coded as 0x120p.02; whether a retrain is in hand; the flits sent and not acknowledged, oldest first; the
next SEQ to send and to receive; the run of NAKs for one SEQ; whether flits are discarded until a re-send; control flits that wait to leave,
and others by class; the lanes in lock; credits by class; the classes of the credits to return, oldest first; and LAT in effect. -/
structure JPort where
  st : Nat
  retrain : Bool
  replay : List Queued
  sendSeq : Nat
  recvSeq : Nat
  nakSeq : Nat
  nakRun : Nat
  discarding : Bool
  ctlQ : List Flit
  schedQ : List Queued
  openQ : List Queued
  lanes : Nat
  crd0 : Nat
  crd1 : Nat
  crdS : Nat
  owed : List Nat
  lat : Nat
  deriving DecidableEq, Repr

/-- A port after reset: Down. -/
def JPort.reset : JPort := ⟨0, false, [], 0, 0, 0, 0, false, [], [], [], 15, 0, 0, 0, [], 256⟩

/-- A flit in a row station's timing buffer (R360). -/
structure TimedFlit where
  station : Nat
  prog : Nat
  flow : Nat
  word : Nat
  due : Nat
  data : List PNt
  deriving DecidableEq, Repr

/-- What a Scheduled flow has brought of a record or contribution that is not complete: its program, its FLOW, and its nonets so far, the
first of them at WORD 0 (R360). -/
structure FlowPart where
  prog : Nat
  flow : Nat
  data : List PNt
  deriving DecidableEq, Repr

/-- A beacon the wait-graph unit holds: a blocked ME, by chip × 256 + core, and the MEs it waits on (R319). -/
structure Beacon where
  node : Nat
  waits : List Nat
  deriving DecidableEq, Repr

/-- A light-path payload on its way (R285, R286): its source, its destination, the chip cycle of its slot, and its nonets. -/
structure LightFlight where
  src : Nat
  dst : Nat
  at_ : Nat
  data : List PNt
  deriving DecidableEq, Repr

/-! ### The host attachment (R380 to R400) -/

/-- A completion (R391): its TAG, STATUS, KIND, VALUE, USER, session and generation. -/
structure Compl where
  tag : Nat
  status : Nat
  kind : Nat
  value : Nat
  user : Nat
  session : Nat
  gen : Nat
  deriving DecidableEq, Repr

/-- A host queue: its state, coded as 0x1180.03; the free-running indices (entries written by the host, entries begun,
completions consumed by the host, completions written); the entries begun and not completed, by entry number and TAG; completions
waiting in the backlog; OVERRUN for the next completion; and of its QP the operations sent to the host and not yet acknowledged, the
retries of the oldest, and how often a CNP has lowered its rate. -/
structure HQueue where
  st : Nat
  tail : Nat
  begun : Nat
  ccons : Nat
  cprod : Nat
  active : List (Nat × Nat)
  waiting : List Compl
  overrun : Bool
  unacked : Nat
  retries : Nat
  slow : Nat
  deriving DecidableEq, Repr

/-- A queue after reset: Off. -/
def HQueue.reset : HQueue := ⟨0, 0, 0, 0, 0, [], [], false, 0, 0, 0⟩

/-- A host port: its state, coded as 0x110p.02, and the priorities that PFC has paused, each with the time in ns at which its pause ends (R380). -/
structure HPort where
  st : Nat
  paused : List (Nat × Nat)
  deriving DecidableEq, Repr

/-- A host port after reset: Down. -/
def HPort.reset : HPort := ⟨0, []⟩

/-- A priority is paused at a time. -/
def HPort.pauses (h : HPort) (prio now : Nat) : Bool := h.paused.any fun e => e.1 == prio && decide (now < e.2)

/-- A memory window (R395, R398); `tag` also counts for windows that are Off, and `destroy` is the DESTROY that waits. -/
structure Win where
  st : Nat
  conv : Nat
  rd : Bool
  wr : Bool
  anyq : Bool
  queue : Nat
  base : Nat
  size : Nat
  tag : Nat
  lost : Bool
  destroy : Option Ticket
  deriving DecidableEq, Repr

/-- A window not in use. -/
def Win.reset : Win := ⟨0, 0, false, false, false, 0, 0, 0, 0, false, none⟩

/-! ### Sessions (R322 to R343) -/

/-- A session descriptor (R324). -/
structure Sess where
  valid : Bool
  state : Nat
  drain : Bool
  failed : Bool
  missed : Bool
  kept : Bool
  prio : Nat
  gen : Nat
  base : Nat
  adapter : Nat
  adptEn : Bool
  deadline : Nat
  interval : Nat
  kvAddr : Nat
  kvSize : Nat
  position : Nat
  qp : Nat
  user : Nat
  samp5 : Word
  samp6 : Word
  samp7 : Word
  deriving DecidableEq, Repr

/-- A working copy in the ready store (R326): its place, the descriptor, and the batch it was last selected for. -/
structure Ready where
  place : Nat
  d : Sess
  last : Option Nat
  deriving DecidableEq, Repr

/-- A session command that has reached the sequencer (R328, R388). -/
structure SCmd where
  queue : Nat
  tag : Nat
  cmd : Nat
  keep : Bool
  host : Bool
  gen : Nat
  number : Nat
  image : Nat
  va : Nat
  rkey : Nat
  fields : Nat
  deriving DecidableEq, Repr

/-- An adapter entry (R332). -/
structure Adapter where
  valid : Bool
  fmt : Nat
  scale : Int
  rank : Nat
  base : Nat
  users : Nat
  addr : Nat
  deriving DecidableEq, Repr

/-- An adapter entry not in use. -/
def Adapter.reset : Adapter := ⟨false, 0, 0, 0, 0, 0, 0⟩

/-! ### Irair (R503 to R518) -/

/-- A response frame of the device (R504). -/
structure RespFrame where
  op : Nat
  status : Nat
  flags : Nat
  frag : Nat
  session : Nat
  seq : Nat
  reqId : Nat
  payload : List (BitVec 8)
  tag : Nat
  deriving DecidableEq, Repr

/-- An open Irair session (R501, R509 to R513, R547): its role, 1 Operator or 2 Owner, its key, the time of its last accepted frame,
the last SEQ and REQ_ID accepted and the response, its selectors by index × 256 + subindex, its nonce and report, and whether it has yet to be
told that its transaction timed out. -/
structure IrSess where
  role : Nat
  key : Nat
  since : Nat
  lastSeq : Nat
  lastReq : Nat
  lastResp : List RespFrame
  sels : SMap Nat
  nonce : Nat
  report : List (BitVec 8)
  late : Bool
  deriving DecidableEq, Repr

/-- A frame of an AUTH message: its FRAG, its MORE and its payload (R505). -/
structure AuthFrag where
  frag : Nat
  more : Bool
  data : List (BitVec 8)
  deriving DecidableEq, Repr

/-- A pending Irair session (R509): the time of its HELLO, the hello payload, the device's nonce, keys and signature, and the frames of
its AUTH so far with their REQ_ID and the time of the first. -/
structure IrPend where
  since : Nat
  hello : List (BitVec 8)
  nd : Nat
  ek : Nat
  dk : Nat
  sigd : List (BitVec 8)
  frags : List AuthFrag
  reqId : Nat
  fragAt : Nat
  deriving DecidableEq, Repr

/-- A staged item (R501, R515): the entry, the selector value it was staged under, and its octets. -/
structure Staged where
  idx : Nat
  sub : Nat
  sel : Nat
  val : List (BitVec 8)
  deriving DecidableEq, Repr

/-- The open transaction (R514): its owner, the time of its BEGIN in ns, and its items in index order. -/
structure Txn where
  owner : Nat
  since : Nat
  items : List Staged
  deriving DecidableEq, Repr

/-! ### Management, freeze, power -/

/-- A management controller (R534 to R545): its primacy bit, whether its Clover runs and since which slot, SVN, VERSION and
BODY_DIGEST; its heartbeat word, and its count of consecutive misses of the peer's. `state` is coded as 0x1000.07; a takeover reset holds it to
the time `heldTo` in ns (R536), and `mute` counts the milliseconds in a row in which its own word did not change. -/
structure Ctrl where
  bit : Bool
  state : Nat
  slot : Nat
  svn : Nat
  version : Nat
  digest : Nat
  beat : Nat
  misses : Nat
  heldTo : Nat
  mute : Nat
  deriving DecidableEq, Repr

/-- A controller after power-on: booting. -/
def Ctrl.reset : Ctrl := ⟨false, 0, 0, 0, 0, 0, 0, 0, 0, 0⟩

/-- The state of a controller as it reads at a time: one whose hold has ended is booting (R536, R537). -/
def Ctrl.shown (c : Ctrl) (now : Nat) : Nat := if c.state = 3 && c.heldTo ≤ now then 0 else c.state

/-- A controller that holds primacy does its work; one whose heartbeat has failed for three milliseconds does not (R536, R537). -/
def Ctrl.leads (c : Ctrl) : Bool := c.bit && decide (c.mute < 3)

/-- The power inputs, rails and sensors, and the pins (R564, R565, R571, R573, R576). `ref` counts reasons that hold the part in
cold reset: 1 RESET_N, 2 48 V, 4 over-temperature, 8 3.3 V. -/
structure Pins where
  held : Nat
  resetN : Bool
  freezeN : Bool
  chainIn : Bool
  chainOut : Bool
  pps : Bool
  tap : Sys2Proof.TapInstr
  boundary : List Bool
  bypass : Bool
  driven : Option (List Bool)
  deriving DecidableEq, Repr

/-- An event record (R465), without its sequence number. -/
structure Event where
  time : Nat
  code : Nat
  tier : Nat
  prog : Nat
  step : Nat
  core : Nat
  eng : Nat
  ctx : Nat
  pc : Nat
  detail : Nat
  deriving DecidableEq, Repr

/-- An armed or running vetting run (R458 to R461). `held` is what a replay that started at a running program's step boundary found of it: its record,
its cores, and the chip cycle; it goes on from there when the run has ended (DESIGN CHOICE, log 33). -/
structure Vet where
  action : Nat
  prog : Nat
  cores : List Nat
  step : Nat
  addr : Nat
  running : Bool
  held : Option (Prog × List (Nat × Core) × Nat)
  deriving DecidableEq, Repr

/-- A record of a step, which a replay uses (R460, R461): the cores' copies at its start, the protected handle contents by core
and handle, the input ranges, and each core's digest at its commit. -/
structure StepRecord where
  copies : List (Nat × CoreCopy)
  handles : List (Nat × Nat × Nat × List PNt)
  ranges : List (Nat × List PNt)
  digests : List (Nat × Nat)
  step : Nat
  stepNo : Nat
  deriving DecidableEq, Repr, Inhabited

/-- What leaves the part, in order: completions written to the host, RDMA operations the device starts, answers to RDMA requests
and doorbells, Irair responses, flits, credit that goes back to a channel end or to a combining queue's source on another chip, bits at TDO,
and the refusal with BUSY of a write to a core's control block (R51). -/
inductive Out where
  | compl (queue va rkey : Nat) (octets : List (BitVec 8))
  | rdmaWrite (queue va rkey : Nat) (octets : List (BitVec 8))
  | rdmaRead (queue va rkey len : Nat)
  | ack (queue : Nat)
  | nak (queue : Nat) (kind : Nat)
  | readResp (queue : Nat) (octets : List (BitVec 8))
  | cnp (queue : Nat)
  | frame (ep : Endpoint) (f : RespFrame)
  | flit (port : Nat) (f : Flit)
  | credit (chip core endn words : Nat)
  | combCredit (core queue src : Nat)
  | tdo (bits : List Bool)
  | regBusy (core off : Nat)
  deriving DecidableEq, Repr

end Sys2Proof.Machine
end

