-- ==== Sys2Proof/Machine/State.lean ====
section
/-! DEFINITION. The state of the part, what stops a step, and the state right after a power-on reset. -/

namespace Sys2Proof.Machine

/-- Why a step stops with a fault. -/
inductive Fault where
  /-- Raised by a command that names a core number above 143 or an engine number above 5. Safe: the part has no such unit (R10, R41). -/
  | noSuchCore
  /-- Raised by a command that names a Jizia port above 11 or a host port above 3. Safe: the part has no such port (R353, R380). -/
  | noSuchPort
  /-- Raised by a command that names a host queue above 4,095. Safe: the part has no such queue (R383). -/
  | noSuchQueue
  /-- Raised by a command that names a window above 1,023, a session above 1,048,575, a stack above 5, a mirrored region above 31, a
  bank above 15, a channel end above 31 or a row station above 11. Safe: the part has no such unit. -/
  | noSuchUnit
  deriving DecidableEq, Repr

/-- Why a command has no meaning. -/
inductive Refusal where
  /-- Raised by an arm of exec whose command is not modelled yet. Safe: the machine stops. -/
  | notModelled (mnemonic : String)
  deriving DecidableEq, Repr

/-- The state of the part: the commands that wait, then everything the spec gives the part. `dict` holds the dictionary entries
that stand off their default, by index × 2^24 + subindex × 2^16 + selector. `slew` is the offset, in ns, that the time counter has yet to be slewed by, and
`slewNs` the ns since it last took one of it (R432, R491). `latent` holds, by local address ÷ 64, a physical fault of a block of memory that its next checked
read meets: 1 fails once, 2 also in the re-read, 3 in the mirror copy too (R255, R257); no command sets it. `held` are the frames of the QPs that wait to
leave, oldest first, by queue and octets (R380). A forced rest window lasts to chip cycle `forcedTo` (R477), `limForce` says that the limiter forces them
(R481), and `moves` counts the stretches and swallows since the crossings were calibrated (R493). `beatMs` is the last millisecond of the time counter in which heartbeats counted (R536). `readWait` are the sessions whose KV copy waits until its QP may ask for it (R382). -/
structure State where
  pending : List Instr
  fuse : Fuse
  time : Nat
  half : Bool
  slew : Int
  slewNs : Nat
  cyc : Nat
  frame : Nat
  cores : SMap Core
  mem : Mem
  latent : SMap Nat
  progs : SMap Prog
  dict : SMap Nat
  jports : SMap JPort
  timing : List TimedFlit
  inbox : List (Nat × Flit)
  beacons : List Beacon
  light : List LightFlight
  parts : List FlowPart
  rest : List Nat
  spans : SMap Nat
  scrubbed : SMap Nat
  hports : SMap HPort
  held : List (Nat × Nat × Out)
  queues : SMap HQueue
  wins : SMap Win
  ready : SMap Ready
  adapters : SMap Adapter
  cmds : List SCmd
  draining : SMap SCmd
  moving : SMap SCmd
  readWait : List Nat
  dropped : List (Nat × Nat)
  irs : SMap IrSess
  irp : SMap IrPend
  txn : Option Txn
  unauthSec : Nat
  unauthN : Nat
  events : SMap Event
  acked : Nat
  rate : SMap Nat
  noPrimary : Bool
  near : Ctrl
  off : Ctrl
  beatMs : Nat
  flash : SMap Nat
  frz : Nat
  fired : Bool
  pst : Nat
  exiting : Bool
  zeroed : Bool
  clocks : Bool
  nearSt : Nat
  farSt : Nat
  pins : Pins
  deficit : List Nat
  lastStretch : SMap Nat
  strWin : List (Nat × Nat)
  limiter : Nat
  limFull : Nat
  furlong : Nat
  furlongNo : Nat
  forcedTo : Nat
  limForce : Bool
  moves : Nat
  calibrated : Bool
  badCross : List Nat
  vet : Option Vet
  recd : Option (List Word × StepRecord)
  serial : Nat
  out : List Out
  deriving DecidableEq, Repr

/-- The fuses of the part that is modelled: AKN-144-B0-LG. DESIGN CHOICE (log 5): the spec lets a part be any of three. -/
def Fuse.part : Fuse := ⟨false, false, 15, List.replicate 16 0x30, false, [0, 0, 0, 0], 0, 0, 0, 0, 0, [0, 0, 0, 0], 0⟩

/-- The pins right after power-on: RESET_N is still low (R490, R564). -/
def Pins.reset : Pins := ⟨1, false, true, false, false, false, .idcode, [], false, none⟩

/-- The part right after a power-on reset (R484, R488, R490): the 3.3 V input has become valid, RESET_N is low, every entry holds
its default, near and far memory list nothing, and nothing waits. -/
def State.reset : State where
  pending := []
  fuse := .part
  time := 0
  half := false
  slew := 0
  slewNs := 0
  cyc := 0
  frame := 0
  cores := .empty
  mem := .empty
  latent := .empty
  progs := .empty
  dict := .empty
  jports := .empty
  timing := []
  inbox := []
  beacons := []
  light := []
  parts := []
  rest := [0, 0, 0, 0, 0, 0]
  spans := .empty
  scrubbed := .empty
  hports := .empty
  held := []
  queues := .empty
  wins := .empty
  ready := .empty
  adapters := .empty
  cmds := []
  draining := .empty
  moving := .empty
  readWait := []
  dropped := []
  irs := .empty
  irp := .empty
  txn := none
  unauthSec := 0
  unauthN := 0
  events := .empty
  acked := 0
  rate := .empty
  noPrimary := false
  near := .reset
  off := .reset
  beatMs := 0
  flash := .empty
  frz := 0
  fired := false
  pst := 0
  exiting := false
  zeroed := false
  clocks := false
  nearSt := 0
  farSt := 0
  pins := .reset
  deficit := [0, 0, 0]
  lastStretch := .empty
  strWin := []
  limiter := 0
  limFull := 0
  furlong := 0
  furlongNo := 0
  forcedTo := 0
  limForce := false
  moves := 0
  calibrated := false
  badCross := []
  vet := none
  recd := none
  serial := 0
  out := []

end Sys2Proof.Machine
end

