-- ==== Sys2Proof/Machine/OdTable.lean ====
section
/-! DEFINITION. The entries of the object dictionary (R497 to R502, R528), as the tables of the chapters give them: index,
subindex, type, access, default, persistence class and bounds. -/

namespace Sys2Proof.Machine

/-- The types of R498. -/
inductive OdTyp where
  | u8 | u16 | u32 | u64 | i32 | bool | enum | str | blob
  deriving DecidableEq, Repr

/-- The access codes of R499. -/
inductive OdAcc where
  | ro | rw | wo | tw | sw
  deriving DecidableEq, Repr

/-- The persistence classes of R500. -/
inductive OdCls where
  | v | w | c | f
  deriving DecidableEq, Repr

/-- The name of a type, an access code or a class, as the tables give it (R498 to R500). -/
def OdTyp.text : OdTyp → String
  | .u8 => "U8" | .u16 => "U16" | .u32 => "U32" | .u64 => "U64" | .i32 => "I32" | .bool => "BOOL" | .enum => "ENUM" | .str => "STR" | .blob => "BLOB"

@[inherit_doc OdTyp.text]
def OdAcc.text : OdAcc → String
  | .ro => "RO" | .rw => "RW" | .wo => "WO" | .tw => "TW" | .sw => "SW"

@[inherit_doc OdTyp.text]
def OdCls.text : OdCls → String
  | .v => "V" | .w => "W" | .c => "C" | .f => "F"

/-- A row of the entries' tables: `idxN` indices from `idx`, `subN` subindices from `sub` in steps of `step`; the fixed length of a
BLOB; the default; and the least and largest value of a number. -/
structure OdRow where
  idx : Nat
  idxN : Nat
  sub : Nat
  subN : Nat
  step : Nat
  typ : OdTyp
  len : Nat
  acc : OdAcc
  cls : OdCls
  dflt : Nat
  lo : Nat
  hi : Nat
  name : String
  deriving DecidableEq, Repr

/-- Entries 0x0000 to 0x0010. -/
def od0 : List OdRow :=
  [⟨0, 1, 1, 1, 1, .str, 0, .ro, .c, 0, 0, 0, "part"⟩,
   ⟨0, 1, 2, 1, 1, .enum, 0, .ro, .c, 0, 0, 1, "grade"⟩,
   ⟨0, 1, 3, 1, 1, .enum, 0, .ro, .c, 0, 0, 1, "stepping"⟩,
   ⟨0, 1, 4, 1, 1, .str, 0, .ro, .c, 0, 0, 0, "serial"⟩,
   ⟨0, 1, 5, 1, 1, .str, 0, .ro, .c, 0, 0, 0, "vendor"⟩,
   ⟨0, 1, 6, 1, 1, .u32, 0, .ro, .c, 0, 0, 4294967295, "clover_version"⟩,
   ⟨0x0010, 1, 1, 1, 1, .u16, 0, .ro, .c, 1, 0, 65535, "irair"⟩,
   ⟨0x0010, 1, 2, 1, 1, .u16, 0, .ro, .c, 1, 0, 65535, "jizia"⟩,
   ⟨0x0010, 1, 3, 1, 1, .u16, 0, .ro, .c, 1, 0, 65535, "host_queue"⟩,
   ⟨0x0010, 1, 4, 1, 1, .u16, 0, .ro, .c, 1, 0, 65535, "image_format"⟩,
   ⟨0x0010, 1, 5, 1, 1, .u16, 0, .ro, .c, 1, 0, 65535, "dictionary"⟩]

/-- Entries 0x1000 to 0x1180. -/
def od1a : List OdRow :=
  [⟨0x1000, 1, 1, 1, 1, .u8, 0, .rw, .c, 255, 1, 16, "node_id"⟩,
   ⟨0x1000, 1, 2, 1, 1, .enum, 0, .ro, .v, 0, 0, 2, "chain"⟩,
   ⟨0x1000, 1, 3, 1, 1, .blob, 6, .ro, .f, 0, 0, 0, "t1s_mac"⟩,
   ⟨0x1000, 1, 4, 1, 1, .enum, 0, .ro, .c, 2, 0, 2, "primary"⟩,
   ⟨0x1000, 1, 5, 1, 1, .u32, 0, .ro, .c, 0, 0, 4294967295, "primacy_generation"⟩,
   ⟨0x1000, 1, 6, 1, 1, .enum, 0, .ro, .c, 0, 0, 1, "strap"⟩,
   ⟨0x1000, 1, 7, 1, 1, .enum, 0, .ro, .c, 0, 0, 3, "standby_state"⟩,
   ⟨0x1000, 1, 8, 1, 1, .u32, 0, .ro, .c, 0, 0, 4294967295, "takeovers"⟩,
   ⟨0x1000, 1, 9, 1, 1, .u32, 0, .ro, .c, 0, 0, 4294967295, "standby_restarts"⟩,
   ⟨0x1010, 1, 1, 1, 1, .u16, 0, .tw, .w, 65535, 0, 65535, "chip_id"⟩,
   ⟨0x1010, 1, 2, 1, 1, .u8, 0, .tw, .w, 0, 0, 6, "dimensions"⟩,
   ⟨0x1010, 1, 3, 6, 1, .u8, 0, .tw, .w, 1, 1, 255, "size_"⟩,
   ⟨0x1010, 1, 9, 1, 1, .bool, 0, .tw, .w, 0, 0, 1, "time_root"⟩,
   ⟨0x1010, 1, 0x000A, 1, 1, .enum, 0, .ro, .v, 0, 0, 2, "time_state"⟩,
   ⟨0x1010, 1, 0x000B, 1, 1, .u32, 0, .rw, .w, 10000, 1000, 1000000, "barrier_margin"⟩,
   ⟨0x1010, 1, 0x000C, 1, 1, .u64, 0, .ro, .v, 0, 0, 18446744073709551615, "barriers"⟩,
   ⟨0x1010, 1, 0x000D, 1, 1, .u32, 0, .ro, .v, 0, 0, 4294967295, "late_barriers"⟩,
   ⟨0x1010, 1, 0x000E, 1, 1, .u64, 0, .ro, .v, 0, 0, 18446744073709551615, "link_stall_cycles"⟩,
   ⟨0x1020, 1, 1, 1, 1, .u16, 0, .tw, .w, 18770, 1024, 65535, "udp_port"⟩,
   ⟨0x1020, 1, 2, 1, 1, .u8, 0, .ro, .v, 0, 0, 255, "sessions_open"⟩,
   ⟨0x1020, 1, 3, 1, 1, .u16, 0, .rw, .w, 60, 10, 3600, "session_idle_s"⟩,
   ⟨0x1020, 1, 4, 1, 1, .u16, 0, .rw, .w, 200, 10, 2000, "unauth_rate"⟩,
   ⟨0x1020, 1, 5, 1, 1, .u64, 0, .ro, .v, 0, 0, 18446744073709551615, "frames_dropped"⟩,
   ⟨0x1020, 1, 6, 1, 1, .u32, 0, .ro, .c, 0, 0, 4294967295, "auth_failures"⟩,
   ⟨0x1100, 4, 1, 1, 1, .bool, 0, .tw, .w, 1, 0, 1, "enable"⟩,
   ⟨0x1100, 4, 2, 1, 1, .enum, 0, .ro, .v, 0, 0, 4, "state"⟩,
   ⟨0x1100, 4, 3, 1, 1, .blob, 6, .tw, .f, 0, 0, 0, "mac"⟩,
   ⟨0x1100, 4, 4, 1, 1, .u32, 0, .tw, .w, 0, 0, 4294967295, "ipv4"⟩,
   ⟨0x1100, 4, 5, 1, 1, .blob, 16, .tw, .w, 0, 0, 0, "ipv6"⟩,
   ⟨0x1100, 4, 6, 1, 1, .u16, 0, .tw, .w, 0, 0, 4095, "vlan"⟩,
   ⟨0x1100, 4, 7, 1, 1, .u16, 0, .tw, .w, 4096, 0, 65535, "mtu"⟩,
   ⟨0x1100, 4, 8, 1, 1, .u8, 0, .tw, .w, 8, 0, 255, "pfc_priorities"⟩,
   ⟨0x1100, 4, 9, 1, 1, .bool, 0, .tw, .w, 1, 0, 1, "ecn"⟩,
   ⟨0x1100, 4, 0x000A, 1, 1, .u64, 0, .ro, .v, 0, 0, 18446744073709551615, "rx_frames"⟩,
   ⟨0x1100, 4, 0x000B, 1, 1, .u64, 0, .ro, .v, 0, 0, 18446744073709551615, "tx_frames"⟩,
   ⟨0x1100, 4, 0x000C, 1, 1, .u64, 0, .ro, .v, 0, 0, 18446744073709551615, "dropped"⟩,
   ⟨0x1100, 4, 0x000D, 1, 1, .u64, 0, .ro, .v, 0, 0, 18446744073709551615, "fec_corrected"⟩,
   ⟨0x1100, 4, 0x000E, 1, 1, .u64, 0, .ro, .v, 0, 0, 18446744073709551615, "pfc_received"⟩,
   ⟨0x1100, 4, 0x000F, 1, 1, .u64, 0, .ro, .v, 0, 0, 18446744073709551615, "cnp_sent"⟩,
   ⟨0x1180, 1, 1, 1, 1, .u16, 0, .rw, .v, 0, 0, 4095, "queue_select"⟩]

/-- Entries 0x1180 to 0x1200. -/
def od1b : List OdRow :=
  [⟨0x1180, 1, 2, 1, 1, .bool, 0, .tw, .w, 0, 0, 1, "enable"⟩,
   ⟨0x1180, 1, 3, 1, 1, .enum, 0, .ro, .w, 0, 0, 3, "state"⟩,
   ⟨0x1180, 1, 4, 1, 1, .u8, 0, .tw, .w, 0, 0, 3, "port"⟩,
   ⟨0x1180, 1, 5, 1, 1, .bool, 0, .tw, .w, 0, 0, 1, "admin"⟩,
   ⟨0x1180, 1, 6, 1, 1, .u16, 0, .tw, .w, 1, 0, 65535, "host_versions"⟩,
   ⟨0x1180, 1, 7, 1, 1, .u8, 0, .ro, .v, 0, 0, 255, "version"⟩,
   ⟨0x1180, 1, 8, 1, 1, .u64, 0, .tw, .w, 0, 0, 18446744073709551615, "sq_base"⟩,
   ⟨0x1180, 1, 9, 1, 1, .u16, 0, .tw, .w, 64, 16, 4096, "sq_entries"⟩,
   ⟨0x1180, 1, 0x000A, 1, 1, .u64, 0, .tw, .w, 0, 0, 18446744073709551615, "cq_va"⟩,
   ⟨0x1180, 1, 0x000B, 1, 1, .u32, 0, .tw, .w, 0, 0, 4294967295, "cq_rkey"⟩,
   ⟨0x1180, 1, 0x000C, 1, 1, .u32, 0, .tw, .w, 1024, 16, 65536, "cq_entries"⟩,
   ⟨0x1180, 1, 0x000D, 1, 1, .blob, 16, .tw, .w, 0, 0, 0, "remote_gid"⟩,
   ⟨0x1180, 1, 0x000E, 1, 1, .u32, 0, .tw, .w, 0, 0, 16777215, "remote_qpn"⟩,
   ⟨0x1180, 1, 0x000F, 1, 1, .u32, 0, .tw, .w, 0, 0, 16777215, "send_psn"⟩,
   ⟨0x1180, 1, 0x0010, 1, 1, .u32, 0, .tw, .w, 0, 0, 16777215, "recv_psn"⟩,
   ⟨0x1180, 1, 0x0011, 1, 1, .u8, 0, .tw, .w, 26, 0, 63, "dscp"⟩,
   ⟨0x1180, 1, 0x0012, 1, 1, .u64, 0, .ro, .v, 0, 0, 18446744073709551615, "overruns"⟩,
   ⟨0x1190, 1, 1, 1, 1, .u16, 0, .rw, .v, 0, 0, 1023, "window_select"⟩,
   ⟨0x1190, 1, 2, 1, 1, .enum, 0, .ro, .v, 0, 0, 2, "state"⟩,
   ⟨0x1190, 1, 3, 1, 1, .u64, 0, .ro, .v, 0, 0, 18446744073709551615, "base"⟩,
   ⟨0x1190, 1, 4, 1, 1, .u64, 0, .ro, .v, 0, 0, 18446744073709551615, "size"⟩,
   ⟨0x1190, 1, 5, 1, 1, .u8, 0, .ro, .v, 0, 0, 255, "mode"⟩,
   ⟨0x1190, 1, 6, 1, 1, .bool, 0, .ro, .v, 0, 0, 1, "lost"⟩,
   ⟨0x1200, 12, 1, 1, 1, .bool, 0, .tw, .w, 1, 0, 1, "enable"⟩,
   ⟨0x1200, 12, 2, 1, 1, .enum, 0, .ro, .v, 0, 0, 7, "state"⟩,
   ⟨0x1200, 12, 3, 1, 1, .u16, 0, .tw, .w, 256, 16, 8192, "declared_latency"⟩,
   ⟨0x1200, 12, 4, 1, 1, .u32, 0, .ro, .v, 0, 0, 4294967295, "measured_latency"⟩,
   ⟨0x1200, 12, 5, 1, 1, .u16, 0, .ro, .v, 65535, 0, 65535, "peer_chip"⟩,
   ⟨0x1200, 12, 6, 1, 1, .u8, 0, .ro, .v, 0, 0, 255, "peer_port"⟩,
   ⟨0x1200, 12, 7, 1, 1, .u8, 0, .ro, .v, 0, 0, 255, "version"⟩,
   ⟨0x1200, 12, 8, 1, 1, .u64, 0, .ro, .v, 0, 0, 18446744073709551615, "flits_resent"⟩,
   ⟨0x1200, 12, 9, 1, 1, .u64, 0, .ro, .v, 0, 0, 18446744073709551615, "crc_errors"⟩,
   ⟨0x1200, 12, 0x000A, 1, 1, .u64, 0, .ro, .v, 0, 0, 18446744073709551615, "fec_corrected"⟩,
   ⟨0x1200, 12, 0x000B, 1, 1, .u64, 0, .ro, .v, 0, 0, 18446744073709551615, "fec_uncorrected"⟩,
   ⟨0x1200, 12, 0x000C, 1, 1, .u32, 0, .ro, .v, 0, 0, 4294967295, "retrains"⟩,
   ⟨0x1200, 12, 0x000D, 1, 1, .u64, 0, .ro, .v, 0, 0, 18446744073709551615, "scheduled_flits"⟩]

/-- Entries 0x2000 to 0x2200. -/
def od2 : List OdRow :=
  [⟨0x2000, 1, 1, 1, 1, .bool, 0, .ro, .v, 0, 0, 1, "pll_locked"⟩,
   ⟨0x2000, 1, 2, 1, 1, .u32, 0, .ro, .c, 0, 0, 4294967295, "pll_unlocks"⟩,
   ⟨0x2000, 1, 3, 1, 1, .u64, 0, .ro, .v, 0, 0, 18446744073709551615, "swallowed"⟩,
   ⟨0x2000, 1, 4, 1, 1, .u64, 0, .ro, .v, 0, 0, 18446744073709551615, "limiter_swallowed"⟩,
   ⟨0x2000, 1, 5, 1, 1, .u64, 0, .ro, .v, 0, 0, 18446744073709551615, "forced_rest_windows"⟩,
   ⟨0x2000, 1, 6, 1, 1, .u16, 0, .ro, .v, 0, 0, 65535, "window_peak"⟩,
   ⟨0x2000, 1, 7, 1, 1, .u8, 0, .rw, .v, 0, 0, 38, "domain_select"⟩,
   ⟨0x2000, 1, 8, 1, 1, .u64, 0, .ro, .v, 0, 0, 18446744073709551615, "domain_stretches"⟩,
   ⟨0x2000, 1, 9, 1, 1, .bool, 0, .tw, .w, 0, 0, 1, "pps_enable"⟩,
   ⟨0x2000, 1, 0x000A, 1, 1, .enum, 0, .ro, .v, 0, 0, 3, "pps_state"⟩,
   ⟨0x2000, 1, 0x000B, 1, 1, .i32, 0, .ro, .v, 0, 0, 4294967295, "pps_offset"⟩,
   ⟨0x2000, 1, 0x000C, 1, 1, .u32, 0, .ro, .v, 0, 0, 4294967295, "pps_ignored"⟩,
   ⟨0x2010, 1, 1, 1, 1, .u8, 0, .rw, .v, 0, 0, 38, "from_select"⟩,
   ⟨0x2010, 1, 2, 1, 1, .u8, 0, .rw, .v, 36, 0, 38, "to_select"⟩,
   ⟨0x2010, 1, 3, 1, 1, .u8, 0, .ro, .v, 4, 0, 255, "declared"⟩,
   ⟨0x2010, 1, 4, 1, 1, .u8, 0, .ro, .v, 0, 0, 255, "pad"⟩,
   ⟨0x2010, 1, 5, 1, 1, .u8, 0, .ro, .v, 8, 0, 255, "slack_min"⟩,
   ⟨0x2010, 1, 6, 1, 1, .enum, 0, .ro, .v, 0, 0, 3, "state"⟩,
   ⟨0x2010, 1, 7, 1, 1, .u32, 0, .ro, .c, 0, 0, 4294967295, "calibrations"⟩,
   ⟨0x2100, 1, 1, 1, 1, .u16, 0, .tw, .w, 1400, 600, 1600, "budget_w"⟩,
   ⟨0x2100, 1, 2, 1, 1, .u16, 0, .ro, .v, 2867, 0, 65535, "budget_tokens"⟩,
   ⟨0x2100, 1, 3, 1, 1, .u16, 0, .ro, .c, 900, 0, 65535, "allowance"⟩,
   ⟨0x2100, 1, 4, 1, 1, .u16, 0, .ro, .v, 1967, 0, 65535, "program_tokens"⟩,
   ⟨0x2100, 1, 5, 1, 1, .u16, 0, .ro, .v, 0, 0, 65535, "declared_sum"⟩,
   ⟨0x2110, 1, 1, 1, 1, .u32, 0, .ro, .v, 0, 0, 4294967295, "last_furlong"⟩,
   ⟨0x2110, 1, 2, 1, 1, .u32, 0, .ro, .v, 0, 0, 4294967295, "peak_furlong"⟩,
   ⟨0x2110, 1, 3, 1, 1, .u64, 0, .ro, .v, 0, 0, 18446744073709551615, "limited_ns"⟩,
   ⟨0x2110, 1, 4, 1, 1, .u64, 0, .ro, .c, 0, 0, 18446744073709551615, "energy"⟩,
   ⟨0x2110, 1, 5, 1, 1, .u16, 0, .rw, .v, 0, 0, 65535, "program_select"⟩,
   ⟨0x2110, 1, 6, 1, 1, .u16, 0, .ro, .v, 0, 0, 65535, "program_declared"⟩,
   ⟨0x2200, 1, 1, 1, 1, .enum, 0, .tw, .v, 0, 0, 3, "request"⟩,
   ⟨0x2200, 1, 2, 1, 1, .enum, 0, .ro, .v, 0, 0, 3, "state"⟩,
   ⟨0x2200, 1, 3, 1, 1, .enum, 0, .tw, .v, 0, 0, 3, "reset_request"⟩,
   ⟨0x2200, 1, 4, 1, 1, .enum, 0, .ro, .c, 0, 0, 6, "last_reset"⟩,
   ⟨0x2200, 1, 5, 1, 1, .u32, 0, .ro, .c, 0, 0, 4294967295, "resets"⟩]

/-- Entries 0x3000 to 0x3110. -/
def od3 : List OdRow :=
  [⟨0x3000, 1, 1, 1, 1, .u8, 0, .rw, .v, 0, 0, 5, "stack_select"⟩,
   ⟨0x3000, 1, 2, 1, 1, .enum, 0, .ro, .v, 0, 0, 3, "state"⟩,
   ⟨0x3000, 1, 3, 1, 1, .u64, 0, .ro, .c, 68719476736, 0, 18446744073709551615, "capacity"⟩,
   ⟨0x3000, 1, 4, 1, 1, .u64, 0, .ro, .c, 0, 0, 18446744073709551615, "base"⟩,
   ⟨0x3000, 1, 5, 1, 1, .i32, 0, .ro, .v, 0, 0, 4294967295, "temperature"⟩,
   ⟨0x3010, 1, 1, 1, 1, .u8, 0, .ro, .v, 0, 0, 255, "channels_active"⟩,
   ⟨0x3010, 1, 2, 1, 1, .u64, 0, .ro, .c, 1546188226560, 0, 18446744073709551615, "usable"⟩,
   ⟨0x3010, 1, 3, 1, 1, .u8, 0, .rw, .v, 0, 0, 47, "channel_select"⟩,
   ⟨0x3010, 1, 4, 1, 1, .enum, 0, .ro, .v, 0, 0, 3, "state"⟩,
   ⟨0x3010, 1, 5, 1, 1, .u32, 0, .ro, .v, 0, 0, 4294967295, "retrains"⟩,
   ⟨0x3010, 1, 6, 1, 1, .u64, 0, .ro, .v, 0, 0, 18446744073709551615, "ecc_reports"⟩,
   ⟨0x3100, 1, 1, 32, 4, .u64, 0, .tw, .w, 0, 0, 18446744073709551615, "primary_"⟩,
   ⟨0x3100, 1, 2, 32, 4, .u64, 0, .tw, .w, 0, 0, 18446744073709551615, "mirror_"⟩,
   ⟨0x3100, 1, 3, 32, 4, .u64, 0, .tw, .w, 0, 0, 18446744073709551615, "size_"⟩,
   ⟨0x3100, 1, 4, 32, 4, .enum, 0, .tw, .w, 0, 0, 3, "state_"⟩,
   ⟨0x3110, 1, 1, 1, 1, .bool, 0, .rw, .w, 1, 0, 1, "enable"⟩,
   ⟨0x3110, 1, 2, 1, 1, .u32, 0, .rw, .w, 3600, 60, 604800, "pass_time"⟩,
   ⟨0x3110, 1, 3, 1, 1, .u32, 0, .rw, .w, 10, 1, 3600, "scratch_pass_time"⟩,
   ⟨0x3110, 1, 4, 1, 1, .u32, 0, .ro, .v, 0, 0, 4294967295, "passes_done"⟩]

/-- Entries 0x4000 to 0x4120. -/
def od4 : List OdRow :=
  [⟨0x4000, 1, 1, 1, 1, .u64, 0, .ro, .c, 0, 0, 18446744073709551615, "present_0"⟩,
   ⟨0x4000, 1, 2, 1, 1, .u64, 0, .ro, .c, 0, 0, 18446744073709551615, "present_1"⟩,
   ⟨0x4000, 1, 3, 1, 1, .u16, 0, .ro, .c, 0, 0, 65535, "present_2"⟩,
   ⟨0x4000, 1, 4, 1, 1, .u8, 0, .ro, .c, 0, 0, 255, "disabled_column"⟩,
   ⟨0x4000, 1, 5, 1, 1, .u64, 0, .tw, .w, 0, 0, 18446744073709551615, "enabled_0"⟩,
   ⟨0x4000, 1, 6, 1, 1, .u64, 0, .tw, .w, 0, 0, 18446744073709551615, "enabled_1"⟩,
   ⟨0x4000, 1, 7, 1, 1, .u16, 0, .tw, .w, 0, 0, 65535, "enabled_2"⟩,
   ⟨0x4000, 1, 8, 1, 1, .u8, 0, .rw, .v, 0, 0, 255, "core_select"⟩,
   ⟨0x4000, 1, 9, 1, 1, .enum, 0, .ro, .v, 0, 0, 4, "core_state"⟩,
   ⟨0x4010, 1, 1, 144, 1, .u16, 0, .tw, .v, 0, 0, 65535, "banks_core_"⟩,
   ⟨0x4010, 1, 0x00A0, 1, 1, .u16, 0, .ro, .c, 4000, 0, 65535, "wake_time"⟩,
   ⟨0x4100, 1, 1, 1, 1, .u8, 0, .rw, .v, 0, 0, 143, "core_select"⟩,
   ⟨0x4100, 1, 2, 1, 1, .enum, 0, .ro, .v, 3, 0, 3, "profile"⟩,
   ⟨0x4100, 1, 3, 1, 1, .u8, 0, .ro, .v, 0, 0, 255, "ope_drain_pad"⟩,
   ⟨0x4100, 1, 4, 1, 1, .u8, 0, .ro, .v, 0, 0, 255, "ve_table_pad"⟩,
   ⟨0x4100, 1, 5, 1, 1, .u8, 0, .ro, .c, 0, 0, 255, "profiles_accepted"⟩,
   ⟨0x4110, 1, 1, 1, 1, .u32, 0, .rw, .w, 4096, 0, 4294967295, "slip_limit"⟩,
   ⟨0x4110, 1, 2, 1, 1, .u32, 0, .rw, .w, 131072, 131072, 4294967295, "wait_timeout"⟩,
   ⟨0x4120, 1, 1, 1, 1, .u16, 0, .rw, .w, 8, 1, 4096, "switch_after"⟩]

/-- Entries 0x5000 to 0x5100. -/
def od5 : List OdRow :=
  [⟨0x5000, 1, 1, 1, 1, .u32, 0, .ro, .w, 0, 0, 4294967295, "valid"⟩,
   ⟨0x5000, 1, 2, 1, 1, .u32, 0, .ro, .w, 0, 0, 4294967295, "idle"⟩,
   ⟨0x5000, 1, 3, 1, 1, .u32, 0, .ro, .w, 0, 0, 4294967295, "resident"⟩,
   ⟨0x5000, 1, 4, 1, 1, .u32, 0, .ro, .w, 0, 0, 4294967295, "running"⟩,
   ⟨0x5000, 1, 5, 1, 1, .u32, 0, .ro, .c, 65536, 0, 4294967295, "ready_capacity"⟩,
   ⟨0x5000, 1, 6, 1, 1, .u64, 0, .ro, .c, 687127658496, 0, 18446744073709551615, "table_base"⟩,
   ⟨0x5000, 1, 7, 1, 1, .u64, 0, .ro, .v, 0, 0, 18446744073709551615, "refused"⟩,
   ⟨0x5000, 1, 8, 1, 1, .u64, 0, .ro, .v, 0, 0, 18446744073709551615, "failed"⟩,
   ⟨0x5000, 1, 9, 1, 1, .u64, 0, .ro, .v, 0, 0, 18446744073709551615, "discarded"⟩,
   ⟨0x5010, 1, 1, 1, 1, .bool, 0, .rw, .w, 1, 0, 1, "hold_empty"⟩,
   ⟨0x5010, 1, 2, 1, 1, .u64, 0, .ro, .v, 0, 0, 18446744073709551615, "tick"⟩,
   ⟨0x5010, 1, 3, 1, 1, .u64, 0, .ro, .v, 0, 0, 18446744073709551615, "batches"⟩,
   ⟨0x5010, 1, 0x0010, 8, 1, .u64, 0, .ro, .v, 0, 0, 18446744073709551615, "misses_prio_"⟩,
   ⟨0x5100, 1, 1, 1, 1, .u32, 0, .ro, .w, 0, 0, 4294967295, "adapters_valid"⟩,
   ⟨0x5100, 1, 2, 1, 1, .u32, 0, .ro, .c, 16384, 0, 4294967295, "adapter_capacity"⟩,
   ⟨0x5100, 1, 3, 1, 1, .u16, 0, .rw, .v, 0, 0, 65535, "adapter_select"⟩,
   ⟨0x5100, 1, 4, 1, 1, .u32, 0, .ro, .v, 0, 0, 4294967295, "users"⟩]

/-- Entries 0x6000 to 0x6030. -/
def od6 : List OdRow :=
  [⟨0x6000, 1, 1, 1, 1, .enum, 0, .tw, .v, 0, 0, 1, "mode"⟩,
   ⟨0x6000, 1, 2, 1, 1, .u16, 0, .rw, .v, 0, 0, 65535, "program_select"⟩,
   ⟨0x6000, 1, 3, 1, 1, .enum, 0, .ro, .v, 0, 0, 1, "program_mode"⟩,
   ⟨0x6000, 1, 4, 1, 1, .u64, 0, .ro, .v, 0, 0, 18446744073709551615, "schedule_cycles"⟩,
   ⟨0x6000, 1, 5, 1, 1, .u64, 0, .ro, .v, 0, 0, 18446744073709551615, "stall_cycles"⟩,
   ⟨0x6000, 1, 6, 1, 1, .u64, 0, .ro, .v, 0, 0, 18446744073709551615, "lost_cycles"⟩,
   ⟨0x6000, 1, 7, 1, 1, .u64, 0, .ro, .v, 0, 0, 18446744073709551615, "last_step_cycles"⟩,
   ⟨0x6000, 1, 8, 1, 1, .u64, 0, .ro, .c, 0, 0, 18446744073709551615, "time_now"⟩,
   ⟨0x6010, 1, 1, 1, 1, .u64, 0, .rw, .w, 0, 0, 18446744073709551615, "job_seed"⟩,
   ⟨0x6010, 1, 2, 1, 1, .u16, 0, .rw, .v, 0, 0, 65535, "program_select"⟩,
   ⟨0x6010, 1, 3, 1, 1, .u64, 0, .ro, .v, 0, 0, 18446744073709551615, "program_seed"⟩,
   ⟨0x6020, 1, 1, 1, 1, .enum, 0, .rw, .w, 0, 0, 1, "overflow_policy"⟩,
   ⟨0x6020, 1, 2, 1, 1, .u8, 0, .rw, .w, 8, 1, 32, "widen_limit"⟩,
   ⟨0x6020, 1, 3, 1, 1, .u32, 0, .ro, .v, 0, 0, 4294967295, "groups_widened"⟩,
   ⟨0x6030, 1, 1, 1, 1, .u8, 0, .rw, .w, 1, 0, 4, "headroom"⟩,
   ⟨0x6030, 1, 2, 1, 1, .u8, 0, .rw, .w, 10, 4, 20, "loss_exp"⟩,
   ⟨0x6030, 1, 3, 1, 1, .u8, 0, .rw, .w, 1, 0, 8, "narrow_margin"⟩]

/-- Entries 0x7000 to 0x7200. -/
def od7a : List OdRow :=
  [⟨0x7000, 1, 1, 1, 1, .u64, 0, .ro, .c, 0, 0, 18446744073709551615, "logged"⟩,
   ⟨0x7000, 1, 2, 1, 1, .u64, 0, .ro, .c, 0, 0, 18446744073709551615, "oldest"⟩,
   ⟨0x7000, 1, 3, 1, 1, .u64, 0, .rw, .v, 0, 0, 18446744073709551615, "select"⟩,
   ⟨0x7000, 1, 4, 1, 1, .blob, 36, .ro, .c, 0, 0, 0, "record"⟩,
   ⟨0x7000, 1, 5, 1, 1, .u8, 0, .rw, .w, 56, 0, 255, "alert_tiers"⟩,
   ⟨0x7000, 1, 6, 1, 1, .u64, 0, .wo, .v, 0, 0, 18446744073709551615, "alert_ack"⟩,
   ⟨0x7010, 1, 1, 1, 1, .u16, 0, .rw, .v, 0, 0, 65535, "program_select"⟩,
   ⟨0x7010, 1, 2, 1, 1, .u64, 0, .ro, .v, 0, 0, 18446744073709551615, "error_remounts"⟩,
   ⟨0x7010, 1, 3, 1, 1, .u64, 0, .ro, .v, 0, 0, 18446744073709551615, "widening_remounts"⟩,
   ⟨0x7010, 1, 4, 1, 1, .u8, 0, .ro, .v, 0, 0, 255, "step_error_remounts"⟩,
   ⟨0x7010, 1, 5, 1, 1, .u64, 0, .ro, .v, 68719476735, 0, 18446744073709551615, "last_committed"⟩,
   ⟨0x7010, 1, 6, 1, 1, .u64, 0, .rw, .v, 0, 0, 18446744073709551615, "first_step"⟩,
   ⟨0x7010, 1, 7, 1, 1, .u64, 0, .ro, .w, 0, 0, 18446744073709551615, "chip_error_remounts"⟩,
   ⟨0x7010, 1, 8, 1, 1, .u32, 0, .ro, .c, 0, 0, 4294967295, "escalations"⟩,
   ⟨0x7010, 1, 9, 1, 1, .u16, 0, .ro, .c, 0, 0, 65535, "last_cause"⟩,
   ⟨0x7020, 1, 1, 1, 1, .u64, 0, .ro, .w, 0, 0, 18446744073709551615, "near_rereads"⟩,
   ⟨0x7020, 1, 2, 1, 1, .u64, 0, .ro, .w, 0, 0, 18446744073709551615, "far_rereads"⟩,
   ⟨0x7020, 1, 3, 1, 1, .u64, 0, .ro, .w, 0, 0, 18446744073709551615, "mirror_reads"⟩,
   ⟨0x7020, 1, 4, 1, 1, .u64, 0, .ro, .w, 0, 0, 18446744073709551615, "near_poisoned"⟩,
   ⟨0x7020, 1, 5, 1, 1, .u64, 0, .ro, .w, 0, 0, 18446744073709551615, "far_poisoned"⟩,
   ⟨0x7020, 1, 6, 1, 1, .u64, 0, .ro, .w, 0, 0, 18446744073709551615, "scratch_uncorrectable"⟩,
   ⟨0x7020, 1, 7, 1, 1, .u64, 0, .ro, .w, 0, 0, 18446744073709551615, "splits"⟩,
   ⟨0x7020, 1, 8, 1, 1, .u64, 0, .ro, .w, 0, 0, 18446744073709551615, "host_reads_refused"⟩,
   ⟨0x7020, 1, 9, 1, 1, .u64, 0, .ro, .w, 0, 0, 18446744073709551615, "poisoned_control"⟩,
   ⟨0x7100, 1, 1, 1, 1, .u8, 0, .rw, .v, 0, 0, 143, "core_select"⟩,
   ⟨0x7100, 1, 2, 1, 1, .u8, 0, .rw, .v, 0, 0, 31, "end_select"⟩,
   ⟨0x7100, 1, 3, 1, 1, .enum, 0, .ro, .v, 0, 0, 5, "end_kind"⟩,
   ⟨0x7100, 1, 4, 1, 1, .u32, 0, .ro, .v, 0, 0, 4294967295, "occupancy"⟩,
   ⟨0x7100, 1, 5, 1, 1, .blob, 9, .ro, .v, 0, 0, 0, "head_header"⟩,
   ⟨0x7100, 1, 6, 1, 1, .u64, 0, .ro, .v, 0, 0, 18446744073709551615, "messages"⟩,
   ⟨0x7100, 1, 7, 1, 1, .u64, 0, .ro, .v, 0, 0, 18446744073709551615, "stalls"⟩,
   ⟨0x7200, 1, 1, 1, 1, .enum, 0, .tw, .v, 0, 0, 3, "action"⟩,
   ⟨0x7200, 1, 2, 1, 1, .u16, 0, .tw, .v, 0, 0, 65535, "program"⟩,
   ⟨0x7200, 1, 3, 1, 1, .u64, 0, .tw, .v, 0, 0, 18446744073709551615, "cores_0"⟩,
   ⟨0x7200, 1, 4, 1, 1, .u64, 0, .tw, .v, 0, 0, 18446744073709551615, "cores_1"⟩,
   ⟨0x7200, 1, 5, 1, 1, .u16, 0, .tw, .v, 0, 0, 65535, "cores_2"⟩,
   ⟨0x7200, 1, 6, 1, 1, .u64, 0, .tw, .v, 0, 0, 18446744073709551615, "record_step"⟩,
   ⟨0x7200, 1, 7, 1, 1, .u64, 0, .tw, .v, 0, 0, 18446744073709551615, "record_addr"⟩,
   ⟨0x7200, 1, 8, 1, 1, .enum, 0, .ro, .v, 0, 0, 4, "state"⟩,
   ⟨0x7200, 1, 9, 1, 1, .u8, 0, .ro, .v, 255, 0, 255, "failing_core"⟩]

/-- Entries 0x7200 to 0x7200. -/
def od7b : List OdRow :=
  [⟨0x7200, 1, 0x000A, 1, 1, .u32, 0, .rw, .w, 64, 0, 4294967295, "suggest_limit"⟩,
   ⟨0x7200, 1, 0x000B, 1, 1, .u64, 0, .ro, .v, 0, 0, 18446744073709551615, "record_size"⟩]

/-- Entries 0x8000 to 0x8020. -/
def od8 : List OdRow :=
  [⟨0x8000, 1, 1, 1, 1, .blob, 32, .ro, .c, 0, 0, 0, "yarrow_digest"⟩,
   ⟨0x8000, 1, 2, 1, 1, .blob, 32, .ro, .c, 0, 0, 0, "clover_near"⟩,
   ⟨0x8000, 1, 3, 1, 1, .blob, 32, .ro, .c, 0, 0, 0, "clover_off"⟩,
   ⟨0x8000, 1, 4, 1, 1, .enum, 0, .ro, .c, 0, 0, 1, "booted_slot"⟩,
   ⟨0x8000, 1, 5, 1, 1, .u8, 0, .ro, .c, 0, 0, 255, "running_svn"⟩,
   ⟨0x8000, 1, 6, 1, 1, .u8, 0, .ro, .c, 0, 0, 255, "fuse_svn"⟩,
   ⟨0x8000, 1, 7, 1, 1, .u8, 0, .ro, .c, 0, 0, 255, "key_revoked"⟩,
   ⟨0x8000, 1, 8, 1, 1, .u32, 0, .sw, .v, 0, 0, 4294967295, "update_offset"⟩,
   ⟨0x8000, 1, 9, 1, 1, .blob, 1024, .sw, .f, 0, 0, 0, "update_data"⟩,
   ⟨0x8000, 1, 0x000A, 1, 1, .enum, 0, .ro, .v, 0, 0, 3, "update_state"⟩,
   ⟨0x8000, 1, 0x000B, 1, 1, .bool, 0, .sw, .v, 0, 0, 1, "update_check"⟩,
   ⟨0x8000, 1, 0x000C, 1, 1, .bool, 0, .sw, .v, 0, 0, 1, "restart_standby"⟩,
   ⟨0x8000, 1, 0x000D, 1, 1, .bool, 0, .sw, .v, 0, 0, 1, "handover"⟩,
   ⟨0x8000, 1, 0x000E, 1, 1, .bool, 0, .sw, .v, 0, 0, 1, "commit_svn"⟩,
   ⟨0x8000, 1, 0x000F, 1, 1, .u8, 0, .sw, .v, 0, 0, 3, "revoke_slot"⟩,
   ⟨0x8010, 1, 1, 1, 1, .u16, 0, .ro, .c, 0, 0, 65535, "cert_length"⟩,
   ⟨0x8010, 1, 2, 1, 1, .u16, 0, .rw, .v, 0, 0, 65535, "cert_offset"⟩,
   ⟨0x8010, 1, 3, 1, 1, .blob, 0, .ro, .c, 0, 0, 0, "cert_chunk"⟩,
   ⟨0x8010, 1, 4, 1, 1, .blob, 32, .ro, .c, 0, 0, 0, "identity_key_hash"⟩,
   ⟨0x8010, 1, 5, 1, 1, .blob, 32, .rw, .v, 0, 0, 0, "nonce"⟩,
   ⟨0x8010, 1, 6, 1, 1, .u16, 0, .ro, .v, 0, 0, 65535, "report_length"⟩,
   ⟨0x8010, 1, 7, 1, 1, .u16, 0, .rw, .v, 0, 0, 65535, "report_offset"⟩,
   ⟨0x8010, 1, 8, 1, 1, .blob, 0, .ro, .v, 0, 0, 0, "report_chunk"⟩,
   ⟨0x8010, 1, 9, 1, 1, .u32, 0, .ro, .v, 0, 0, 4294967295, "reports"⟩,
   ⟨0x8020, 1, 1, 1, 1, .enum, 0, .sw, .f, 0, 0, 1, "image_signing"⟩,
   ⟨0x8020, 1, 2, 1, 1, .bool, 0, .ro, .f, 0, 0, 1, "claimed"⟩,
   ⟨0x8020, 1, 3, 4, 1, .blob, 32, .sw, .f, 0, 0, 0, "image_key_"⟩,
   ⟨0x8020, 1, 0x0010, 8, 2, .blob, 32, .sw, .f, 0, 0, 0, "manager_key_"⟩,
   ⟨0x8020, 1, 0x0011, 8, 2, .enum, 0, .sw, .f, 0, 0, 2, "manager_role_"⟩,
   ⟨0x8020, 1, 0x0020, 1, 1, .u32, 0, .ro, .v, 0, 0, 4294967295, "loads_refused"⟩]

/-- Entries 0x9000 to 0x9000. -/
def od9 : List OdRow :=
  [⟨0x9000, 1, 1, 1, 1, .enum, 0, .tw, .v, 0, 0, 2, "arm"⟩,
   ⟨0x9000, 1, 2, 1, 1, .u16, 0, .tw, .v, 0, 0, 65535, "program"⟩,
   ⟨0x9000, 1, 3, 1, 1, .u64, 0, .tw, .v, 0, 0, 18446744073709551615, "at"⟩,
   ⟨0x9000, 1, 4, 1, 1, .enum, 0, .tw, .v, 0, 0, 1, "freeze_mode"⟩,
   ⟨0x9000, 1, 5, 1, 1, .enum, 0, .ro, .v, 0, 0, 5, "state"⟩,
   ⟨0x9000, 1, 6, 1, 1, .enum, 0, .ro, .v, 0, 0, 4, "source"⟩,
   ⟨0x9000, 1, 7, 1, 1, .u64, 0, .ro, .v, 0, 0, 18446744073709551615, "frozen_cycle"⟩,
   ⟨0x9000, 1, 8, 1, 1, .u64, 0, .ro, .v, 0, 0, 18446744073709551615, "frozen_time"⟩,
   ⟨0x9000, 1, 9, 1, 1, .bool, 0, .rw, .v, 0, 0, 1, "freeze_now"⟩,
   ⟨0x9000, 1, 0x000A, 1, 1, .u16, 0, .tw, .v, 0, 0, 65535, "readout_queue"⟩,
   ⟨0x9000, 1, 0x000B, 1, 1, .u64, 0, .tw, .v, 0, 0, 18446744073709551615, "readout_va"⟩,
   ⟨0x9000, 1, 0x000C, 1, 1, .u32, 0, .tw, .v, 0, 0, 4294967295, "readout_rkey"⟩,
   ⟨0x9000, 1, 0x000D, 1, 1, .u8, 0, .tw, .v, 15, 0, 255, "readout_parts"⟩,
   ⟨0x9000, 1, 0x000E, 1, 1, .bool, 0, .rw, .v, 0, 0, 1, "readout_start"⟩,
   ⟨0x9000, 1, 0x000F, 1, 1, .u64, 0, .ro, .v, 0, 0, 18446744073709551615, "image_length"⟩,
   ⟨0x9000, 1, 0x0010, 1, 1, .u64, 0, .ro, .v, 0, 0, 18446744073709551615, "readout_done"⟩,
   ⟨0x9000, 1, 0x0011, 1, 1, .bool, 0, .rw, .v, 0, 0, 1, "end"⟩]

/-- Entries 0xF000 to 0xF000. -/
def odF : List OdRow :=
  [⟨0xF000, 1, 1, 1, 1, .enum, 0, .ro, .v, 0, 0, 3, "state"⟩,
   ⟨0xF000, 1, 2, 1, 1, .u32, 0, .ro, .v, 0, 0, 4294967295, "owner"⟩,
   ⟨0xF000, 1, 3, 1, 1, .u16, 0, .ro, .v, 0, 0, 65535, "staged"⟩,
   ⟨0xF000, 1, 4, 1, 1, .u16, 0, .ro, .v, 0, 0, 65535, "remaining_ms"⟩,
   ⟨0xF000, 1, 5, 1, 1, .u8, 0, .ro, .v, 0, 0, 255, "last_result"⟩,
   ⟨0xF000, 1, 6, 1, 1, .u32, 0, .ro, .v, 0, 0, 4294967295, "last_failed"⟩,
   ⟨0xF000, 1, 7, 1, 1, .u32, 0, .ro, .v, 0, 0, 4294967295, "commits"⟩]

/-- Every row, in index order. -/
def odRows : List OdRow := od0 ++ od1a ++ od1b ++ od2 ++ od3 ++ od4 ++ od5 ++ od6 ++ od7a ++ od7b ++ od8 ++ od9 ++ odF

end Sys2Proof.Machine
end

