-- ==== Sys2Proof/Machine/Ops.lean ====
section
/-! DEFINITION. The operations over the part's state that many commands share: dictionary values, events and alerts, cores and what
they see, time, completions, the end of a program, stalls and remount triggers. -/

namespace Sys2Proof.Machine

abbrev Result := Host.Outcome State Fault Refusal

/-! ### Dictionary values (R497 to R501) -/

/-- The row of an entry covers a subindex of an index. -/
def OdRow.covers (r : OdRow) (idx sub : Nat) : Bool :=
  decide (r.idx ≤ idx) && decide (idx < r.idx + r.idxN) && decide (r.sub ≤ sub) && (sub - r.sub) % r.step == 0 &&
    decide ((sub - r.sub) / r.step < r.subN)

/-- The row of an entry; `none` where it is not defined. -/
def odRow (idx sub : Nat) : Option OdRow := odRows.find? fun r => r.covers idx sub

/-- The default of an entry; the two that the tables give by formula are the presence words (R525) and the MAC addresses (R381). -/
def odDefault (f : Fuse) (idx sub : Nat) : Nat :=
  let present := (List.range 144).foldl (fun n c => if f.absent.contains c then n else n + 2 ^ c) 0
  if idx = 0x4000 && sub = 5 then nbits present 63 0
  else if idx = 0x4000 && sub = 6 then nbits present 127 64
  else if idx = 0x4000 && sub = 7 then nbits present 143 128
  else if 0x1100 ≤ idx && idx < 0x1104 && sub = 3 then f.macs.getD (idx - 0x1100) 0
  else match odRow idx sub with | some r => r.dflt | none => 0

/-- The key of an entry's value under a selector value. -/
def odKey (idx sub sel : Nat) : Nat := idx * 2 ^ 24 + sub * 2 ^ 16 + sel

/-- The stored value of an entry. -/
def State.valAt (s : State) (idx sub sel : Nat) : Nat :=
  lookupL (odDefault s.fuse idx sub) s.dict.entries (odKey idx sub sel)

/-- The stored value of an entry without a selector. -/
def State.val (s : State) (idx sub : Nat) : Nat := s.valAt idx sub 0

/-- Set the stored value of an entry. -/
def State.setAt (s : State) (idx sub sel v : Nat) : State :=
  { s with dict := s.dict.write (odDefault s.fuse idx sub) (odKey idx sub sel) v }

/-- Set the stored value of an entry without a selector. -/
def State.setVal (s : State) (idx sub v : Nat) : State := s.setAt idx sub 0 v

/-- Add to a count; it saturates at its type's maximum (R343; DESIGN CHOICE for the counts of other chapters, log 22). -/
def State.bumpAt (s : State) (idx sub sel n : Nat) : State :=
  let mx := match odRow idx sub with | some r => r.hi | none => 2 ^ 64 - 1
  s.setAt idx sub sel (satAdd mx (s.valAt idx sub sel) n)

/-- Add to a count without a selector. -/
def State.bump (s : State) (idx sub n : Nat) : State := s.bumpAt idx sub 0 n

/-- The entry's class is one that a reset or power state drops. -/
def odDropped (drop : OdCls → Bool) (key : Nat) : Bool :=
  match odRow (key / 2 ^ 24) (key / 2 ^ 16 % 256) with
  | some r => drop r.cls
  | none => false

/-- The entries that an Irair session holds for itself, all of class V, return to their defaults in a range of indices: its selectors, its nonce and its report
(R500, R501, R548). -/
def IrSess.dropV (lo hi : Nat) (i : IrSess) : IrSess :=
  let gone (idx : Nat) : Bool := decide (lo ≤ idx) && decide (idx ≤ hi)
  { i with
    sels := i.sels.keep fun k => !(gone (k / 256))
    nonce := if gone 0x8010 then 0 else i.nonce
    report := if gone 0x8010 then [] else i.report }

/-- What the sessions hold of some classes, in a range of indices, returns to its default. -/
def State.dropSess (s : State) (drop : OdCls → Bool) (lo hi : Nat) : State :=
  if drop .v then { s with irs := s.irs.mapVals fun _ i => i.dropV lo hi } else s

/-- Return the entries of some classes, in a range of indices, to their defaults (R488). -/
def State.dropEntries (s : State) (drop : OdCls → Bool) (lo hi : Nat) : State :=
  { s with dict := s.dict.keep fun k => !(decide (lo ≤ k / 2 ^ 24) && decide (k / 2 ^ 24 ≤ hi) && odDropped drop k) }.dropSess drop lo hi

/-! ### Events and alerts (R465 to R467) -/

/-- The tier of an event code (R466). -/
def tierOf (code : Nat) : Nat := code / 256

/-- Log a record: tier 1 at most once a second for each code and core (R465). -/
def State.log (s : State) (e : Event) : State :=
  let key := e.code * 256 + e.core
  let held := match s.rate.entries.find? (fun x => x.1 == key) with
    | some x => e.tier == 1 && decide (s.time < x.2 + 1000000000)
    | none => false
  if held then s
  else
    let n := s.val 0x7000 1
    let ev := s.events.put n { e with time := s.time }
    { s.bump 0x7000 1 1 with
      events := if 4096 ≤ n then ev.erase (n - 4096) else ev
      rate := if e.tier = 1 then s.rate.put key s.time else s.rate }

/-- Log a record that names no program (R465). -/
def State.logChip (s : State) (code core detail : Nat) : State :=
  s.log ⟨0, code, tierOf code, 0, 0, core, 0, 0, 0, detail⟩

/-- ALERT_N is asserted: an unacknowledged record of a tier in alert_tiers is held, or no controller has become primary (R467,
R542). -/
def State.alert (s : State) : Bool :=
  s.noPrimary || s.events.entries.any fun e => decide (s.acked ≤ e.1) && nbit (s.val 0x7000 5) e.2.tier

/-! ### Cores and what they see -/

/-- Core `c`. -/
def State.core (s : State) (c : Nat) : Core := s.cores.get .reset c

/-- Replace a core. -/
def State.setCore (s : State) (c : Nat) (k : Core) : State := { s with cores := s.cores.put c k }

/-- The program of a number. -/
def State.prog (s : State) (n : Nat) : Option Prog := (s.progs.entries.find? fun e => e.1 == n).map (·.2)

/-- Replace a program. -/
def State.setProg (s : State) (n : Nat) (p : Prog) : State := { s with progs := s.progs.put n p }

/-- Change a program, where the number names one. -/
def State.updProg (s : State) (n : Nat) (f : Prog → Prog) : State :=
  match s.prog n with
  | some p => s.setProg n (f p)
  | none => s

/-- This chip's ID (R377). -/
def State.chipId (s : State) : Nat := s.val 0x1010 1

/-- The sizes of the dimensions (R377). -/
def State.sizes (s : State) : List Nat := (List.range 6).map fun d => s.val 0x1010 (3 + d)

/-! ### Chip coordinates and routes (R354, R364, R365) -/

/-- The sizes in use: 1 for every dimension not in use (R364). -/
def State.sizesUsed (s : State) : List Nat := s.sizes.zipIdx.map fun e => if e.2 < s.val 0x1010 2 then e.1 else 1

/-- A chip ID is in the system (R364). -/
def State.chipInSystem (s : State) (i : Nat) : Bool := decide (i < chipCount s.sizesUsed)

/-- The port by which a flit for a chip leaves (R365); `none`: it is this chip's. -/
def State.routePort (s : State) (dchip : Nat) : Option Nat := chipPort s.sizesUsed s.chipId dchip

/-- A flit that leaves through a port crosses the link between the last coordinate of its dimension and 0 (R363). -/
def State.wraps (s : State) (port : Nat) : Bool :=
  let d := port / 2
  let n := s.sizesUsed.getD d 1
  let x := (coordsOf s.sizesUsed s.chipId).getD d 0
  if port % 2 = 1 then x + 1 == n else x == 0

/-- A port may leave Down (R354, R368): the chip's ID is in the system and the port's dimension is in use. -/
def State.portMay (s : State) (p : Nat) : Bool :=
  s.chipId != 0xFFFF && s.chipInSystem s.chipId && decide (p / 2 < s.val 0x1010 2) && decide (1 < s.sizesUsed.getD (p / 2) 1)

/-- The chip at the other end of a port's cable, and the peer's port (R354). -/
def State.peerOf (s : State) (p : Nat) : Nat × Nat := (chipBeyond s.sizesUsed s.chipId p, portOpposite p)

/-- Jizia port `p`. -/
def State.jport (s : State) (p : Nat) : JPort := s.jports.get .reset p

/-- Replace a Jizia port. -/
def State.setJport (s : State) (p : Nat) (j : JPort) : State := { s with jports := s.jports.put p j }

/-- A Jizia port carries Open flits (R368, R371). -/
def State.portOpen (s : State) (p : Nat) : Bool := (s.jport p).st == 3 || (s.jport p).st == 4

/-- Open traffic for another chip can leave this one (R371). -/
def State.reaches (s : State) (chip : Nat) : Bool := match s.routePort chip with | some p => s.portOpen p | none => true

/-- What is in flight to another chip can come to its end: the port it has left by is open, or Draining (R372, R452). -/
def State.reachesStill (s : State) (chip : Nat) : Bool :=
  match s.routePort chip with | some p => s.portOpen p || (s.jport p).st == 6 | none => true

/-! ### Settings, seals and what a core sees -/

/-- The settings a program takes over at its start and at each step boundary (R211, R212, R290, R343, R422). -/
def State.latch (s : State) : Latched :=
  ⟨s.val 0x6000 1 == 1, s.val 0x6020 1, s.val 0x6020 2, s.val 0x6030 1, s.val 0x6030 2, s.val 0x6030 3, s.val 0x4120 1,
   s.val 0x5010 1 == 1⟩

/-- The sealed ranges (R92). -/
def State.seals (s : State) : List (Nat × Nat) := s.progs.entries.map fun e => (e.2.image, e.2.size)

/-- The core whose number the stochastic keys of a core use: its own, or in a replay its recorded core's (R33, R461). -/
def rotated (c : Nat) : Nat :=
  12 * (4 * (c / 12 / 4) + 3 - c / 12 % 4) + 6 * (c % 12 / 6) + 5 - c % 12 % 6

/-- The other cores of a program under the stack of core `c`. -/
def State.nearMates (_s : State) (p : Prog) (c : Nat) : List Nat := p.cores.filter fun k => k != c && stackOf k == stackOf c

/-- What a core sees of the chip. -/
def State.env (s : State) (c : Nat) : Env :=
  let base : Env :=
    { core := c, chip := s.chipId, absent := s.fuse.absent, dims := s.val 0x1010 2, sizes := s.sizes
      free := s.val 0x6000 1 == 1, step := 0, key := ⟨0, 0, c⟩, train := false, policy := s.val 0x6020 1
      profile := (s.core c).profile, slipLimit := s.val 0x4110 1, waitTimeout := s.val 0x4110 2
      switchAfter := s.val 0x4120 1, headroom := s.val 0x6030 1, lossExp := s.val 0x6030 2, margin := s.val 0x6030 3
      suggest := s.val 0x7200 0x0A, marks := [], digest := 0, stepNo := 0, seals := s.seals, pcores := [], frame := 144, starts := [], widenUp := false
      nearTo := none, nearGets := none }
  match (s.core c).prog with
  | none => base
  | some n =>
    match s.prog n with
    | none => base
    | some p =>
      let twin := match s.vet with | some v => v.running && v.action == 3 && v.prog == n | none => false
      { base with
        free := p.lat.free, step := p.step, key := ⟨p.seed % 2 ^ 36, p.step, if twin then rotated c else c⟩, train := p.train
        policy := p.lat.policy, profile := p.profile, switchAfter := p.lat.switchAfter, headroom := p.lat.headroom
        lossExp := p.lat.lossExp, margin := p.lat.margin
        marks := p.marks.filterMap fun m => if m.1 = c then some m.2 else none
        digest := p.digest, stepNo := p.stepNo, pcores := p.cores
        frame := p.slots.frame
        starts := p.slots.statics.flatMap fun f => if f.src = .ofCore c then f.starts.map fun t => (f.flow, t) else []
        widenUp := decide (p.lat.widenLimit ≤ p.stepWide)
        nearTo := (s.nearMates p c).foldl (fun m k => minDue m (some (s.core k).now)) none
        nearGets := (s.nearMates p c).foldl (fun m k => minDue m ((s.core k).getsFirst (decide (k < c)))) none }

/-- A freeze is in place (R554). -/
def State.frozen (s : State) : Bool := s.frz == 2 || s.frz == 3 || s.frz == 4

/-- The stretchable domains are clocked, and the part is not held in reset. -/
def State.powered (s : State) : Bool := s.clocks && s.pins.held == 0

/-- The part is in operation: its stretchable domains are clocked, it is Active and not frozen (R482, R555). -/
def State.live (s : State) : Bool := s.clocks && s.pst == 0 && !s.exiting && s.pins.held == 0 && !s.frozen

/-- The management controllers work: the always-on domain is powered, and one holds primacy and has not failed (R534, R537, R542). -/
def State.managed (s : State) : Bool := s.near.leads || s.off.leads

/-- The program of a core issues: it runs, and no whole-machine stall holds it (R425). -/
def Prog.issues (p : Prog) : Bool := p.running && p.stalls.isEmpty && !p.remounting

/-- The engines of a core may work in this state of the part. -/
def State.coreRuns (s : State) (c : Nat) : Bool :=
  s.live && (match (s.core c).prog with
    | some n => (match s.prog n with | some p => p.issues | none => false)
    | none => false)

/-! ### Time (R6, R347, R425, R432, R472) -/

/-- `n` ns pass (R432, R491): while an offset remains to be slewed, the counter gains or loses 1 ns in 5,000, which is 200 ppm; it never moves back. DESIGN
CHOICE (log 57): the spec gives a bound and no rate. -/
def State.passNs (s : State) (n : Nat) : State :=
  let k := min n (min s.slew.natAbs ((s.slewNs + n) / 5000))
  { s with
    time := (if 0 ≤ s.slew then s.time + n + k else s.time + n - k) % 2 ^ 64
    slew := if 0 ≤ s.slew then s.slew - k else s.slew + k
    slewNs := if s.slew.natAbs = k then 0 else s.slewNs + n - 5000 * k }

/-- The stall in which a program begins while a forced rest window lasts (R477). -/
def State.restLeft (s : State) : List Stall := if s.cyc < s.forcedTo then [.rest (s.forcedTo - s.cyc)] else []

/-- What `n` cycles leave of a cause of a stall; one whose length is known ends by itself. -/
def Stall.pass (n : Nat) : Stall → Option Stall
  | .reread k => if k ≤ n then none else some (.reread (k - n))
  | .rest k => if k ≤ n then none else some (.rest (k - n))
  | c => some c

/-- How many of the next `n` cycles a cause holds. -/
def Stall.held (n : Nat) : Stall → Nat
  | .reread k => min n k
  | .rest k => min n k
  | _ => n

/-- Stall cycles are counted where the cause keeps a count: feed-stall, outbound stall and link-stall cycles (R91, R281, R360). A feed stall counts
in the core whose queue was empty. DESIGN CHOICE (log 128): R91 does not say in which of the program's cores it counts. -/
def State.countStall (n : Nat) (s : State) : Stall → State
  | .feed c _ _ =>
    let k := s.core c
    s.setCore c { k with st := { k.st with feedStall := (k.st.feedStall + n) % 2 ^ 36 } }
  | .outbound c =>
    let k := s.core c
    s.setCore c { k with te := { k.te with outStall := (k.te.outStall + n) % 2 ^ 36 } }
  | .link .. => s.bump 0x1010 0xE n
  | _ => s

/-- The regulators of some cores gain the tokens of `n` cycles in which those cores stand still (R278, R425). -/
def State.gainTokens (n : Nat) (s : State) (l : List Nat) : State :=
  if n = 0 then s else l.foldl (fun s c => s.setCore c ((s.core c).gain n)) s

/-- `n` cycles pass for program `k`: those in which a cause holds it are its stall cycles, counted once (R424, R425). -/
def State.stallPass (n : Nat) (s : State) (k : Nat) : State :=
  match s.prog k with
  | none => s
  | some p =>
    if p.running && !p.stalls.isEmpty then
      let h := p.stalls.foldl (fun m c => max m (c.held n)) 0
      (p.stalls.foldl (State.countStall n) (s.setProg k { p with
        stallCycles := p.stallCycles + h, stepStall := p.stepStall + h, stalls := p.stalls.filterMap (Stall.pass n) })).gainTokens h p.cores
    else if p.starting then (s.setProg k { p with stallCycles := p.stallCycles + n }).gainTokens n p.cores
    else s

/-- The chip cycle count moves on by `n` core cycles of 0.5 ns, and with it the light-path frame, the free-running rest
counters and the stall cycles of the programs that are held (R254, R284, R425, R472). -/
def State.addCycles (s : State) (n : Nat) : State :=
  let h := b2n s.half + n
  (s.progs.entries.map (·.1)).foldl (State.stallPass n) { s.passNs (h / 2) with
    half := h % 2 == 1
    cyc := (s.cyc + n) % 2 ^ 64
    frame := (s.frame + n) % 144
    rest := s.rest.map (· + n) }

/-- The chip keeps pace with a core: the program cycle count is the chip cycle count less the program's start and its stall
cycles (R347, R423). -/
def State.pace (s : State) (c : Nat) : State :=
  let k := s.core c
  match k.prog with
  | none => s
  | some n =>
    match s.prog n with
    | none => s
    | some p => s.addCycles (p.base + p.stallCycles + k.now - s.cyc)

/-! ### Host queues and completions (R384 to R394) -/

/-- Host queue `q`. -/
def State.queue (s : State) (q : Nat) : HQueue := s.queues.get .reset q

/-- Replace a host queue. -/
def State.setQueue (s : State) (q : Nat) (h : HQueue) : State := { s with queues := s.queues.put q h }

/-- Completions in the backlog, over all queues (R394). -/
def State.backlog (s : State) : Nat := s.queues.entries.foldl (fun n e => n + e.2.waiting.length) 0

/-- The octets of a completion entry (R391). -/
def Compl.octets (c : Compl) (q : Nat) (phase overrun : Bool) : List (BitVec 8) :=
  toOctets 4 c.tag ++ toOctets 2 q ++ toOctets 1 c.status ++ toOctets 1 (b2n phase * 128 + c.kind * 16 + b2n overrun) ++
    toOctets 8 c.value ++ toOctets 8 c.user ++ toOctets 4 c.session ++ toOctets 2 c.gen ++ toOctets 2 0

/-- Host port `p`. -/
def State.hport (s : State) (p : Nat) : HPort := s.hports.get .reset p

/-- The host port of a queue. -/
def State.portOf (s : State) (q : Nat) : Nat := s.valAt 0x1180 4 q

/-- The engine of a host port runs: its domain is clocked, in Parked too (R482); in a freeze that of port 0 alone (R556). -/
def State.hostRuns (s : State) (p : Nat) : Bool := s.powered && decide (s.pst ≤ 2) && (p == 0 || !s.frozen)

/-- The queue can take a completion: it is Ready on a port that is Up, the completion logic runs, and its ring has room (R394, R400, R556). -/
def State.ringRoom (s : State) (q : Nat) : Bool :=
  let h := s.queue q
  let used := (h.cprod + 2 ^ 32 - h.ccons) % 2 ^ 32
  h.st == 1 && s.hostRuns (s.portOf q) && !s.frozen && (s.hport (s.portOf q)).st == 2 && (decide (used < s.valAt 0x1180 0x0C q) || decide (2 ^ 31 ≤ used))

/-- Frames of the RoCEv2 MTU that carry `n` octets (R381). -/
def State.framesOf (s : State) (p n : Nat) : Nat := max 1 (cdiv n (max 256 (s.val (0x1100 + p) 7)))

/-- A frame of a queue's QP leaves at once: its port is Up or Draining, PFC does not pause its priority (R380), and no frame of the QP waits before it. -/
def State.sends (s : State) (q : Nat) : Bool :=
  let h := s.hport (s.portOf q)
  (h.st == 2 || h.st == 3) && !(h.pauses (Config.hostPrio (s.valAt 0x1180 0x11 q)) s.time) && !(s.held.any fun e => e.1 == q)

/-- Frames leave for the host over a queue's port, and what they hold with them (R381); where they cannot, they wait. -/
def State.sendHost (s : State) (q n : Nat) (o : Out) : State :=
  if s.sends q then { s.bump (0x1100 + s.portOf q) 0xB (s.framesOf (s.portOf q) n) with out := s.out ++ [o] }
  else { s with held := s.held ++ [(q, n, o)] }

/-- Frames that wait leave, as far as they now can (R380). -/
def State.freeHeld (s : State) : State := s.held.foldl (fun s e => s.sendHost e.1 e.2.1 e.2.2) { s with held := [] }

/-- The frames that wait to leave by a port are lost. -/
def State.dropHeld (s : State) (p : Nat) : State := { s with held := s.held.filter fun e => s.portOf e.1 != p }

/-- Write a completion entry to the host (R391). -/
def State.writeCompl (s : State) (q : Nat) (c : Compl) : State :=
  let h := s.queue q
  let n := s.valAt 0x1180 0x0C q
  let phase := h.cprod / max n 1 % 2 == 0
  (s.setQueue q { h with cprod := (h.cprod + 1) % 2 ^ 32, overrun := false, unacked := h.unacked + 1 }).sendHost q 32
    (.compl q (s.valAt 0x1180 0xA q + 32 * (h.cprod % max n 1)) (s.valAt 0x1180 0xB q) (c.octets q phase h.overrun))

/-- A completion arises (R394): it is written, waits in the backlog, or is dropped. -/
def State.post (s : State) (q : Nat) (c : Compl) : State :=
  let h := s.queue q
  if h.waiting.isEmpty && s.ringRoom q then s.writeCompl q c
  else if s.backlog < 16384 then s.setQueue q { h with waiting := h.waiting ++ [c] }
  else (s.setQueue q { h with overrun := true }).bumpAt 0x1180 0x12 q 1

/-- An entry of a queue ends in its completion, exactly one (R387). The entry is the oldest one begun that carries the TAG; one that was
discarded has ended already. VALUE is a free value where the spec gives the entry no result (log 31). -/
def State.complete (s : State) (q tag status : Nat) (value : Option Nat) : State :=
  let h := s.queue q
  match takeFirst (fun e => e.2 == tag) h.active with
  | some r => (s.setQueue q { h with active := r.2 }).post q ⟨tag, status, 0, value.getD (Config.noResult tag), 0, 0, 0⟩
  | none => s

/-- Every admin queue that is Ready receives an event completion (R454). Its STATUS is OK (DESIGN CHOICE, log 23). -/
def State.postEvent (s : State) (code : Nat) : State :=
  s.queues.entries.foldl (fun s e =>
    if e.2.st == 1 && s.valAt 0x1180 5 e.1 == 1 then s.post e.1 ⟨0, 0, 2, code, 0, 0, 0⟩ else s) s

/-! ### Descriptors (R322 to R326, R330) -/

/-- The words of a descriptor (R324). -/
def Sess.words (d : Sess) : List Word :=
  [packWord [(b2n d.valid, 71), (d.state, 69), (b2n d.drain, 68), (b2n d.failed, 67), (b2n d.missed, 66), (b2n d.kept, 65),
     (d.prio, 62), (d.gen, 46), (d.base, 40), (d.adapter, 26), (b2n d.adptEn, 25)],
   packWord [(d.deadline, 36), (d.interval, 0)], packWord [(d.kvAddr, 0)], packWord [(d.kvSize, 36), (d.position, 0)],
   packWord [(d.qp, 48), (d.user, 0)], d.samp5, d.samp6, d.samp7]

/-- A descriptor from its words (R324). -/
def Sess.ofWords (l : List Word) : Sess :=
  let w (i : Nat) : Word := l.getD i 0
  ⟨bit (w 0) 71, bits (w 0) 70 69, bit (w 0) 68, bit (w 0) 67, bit (w 0) 66, bit (w 0) 65, bits (w 0) 64 62, bits (w 0) 61 46,
   bits (w 0) 45 40, bits (w 0) 39 26, bit (w 0) 25, bits (w 1) 71 36, bits (w 1) 35 0, bits (w 2) 43 0, bits (w 3) 71 36,
   bits (w 3) 35 0, bits (w 4) 59 48, bits (w 4) 35 0, w 5, w 6, w 7⟩

/-- The address of descriptor `i` (R322). -/
def sessAddr (i : Nat) : Nat := tableBase + 64 * i

/-- The working copy of a session, where it has one (R326). -/
def State.copyOf (s : State) (i : Nat) : Option Ready := (s.ready.entries.find? fun e => e.1 == i).map (·.2)

/-- The descriptor of a session: its working copy, or its table block (R326). -/
def State.sess (s : State) (i : Nat) : Sess :=
  match s.copyOf i with
  | some r => r.d
  | none => Sess.ofWords (s.mem.readWords (sessAddr i) 8)

/-- The adapter whose USERS a descriptor counts in (R330). -/
def Sess.uses (d : Sess) : Option Nat := if d.valid && d.adptEn then some d.adapter else none

/-- Adapter entry `a`. -/
def State.adapter (s : State) (a : Nat) : Adapter := s.adapters.get .reset a

/-- A user joins or leaves an adapter. -/
def State.useAdapter (s : State) (a : Option Nat) (join : Bool) : State :=
  match a with
  | none => s
  | some n =>
    let x := s.adapter n
    { s with adapters := s.adapters.put n { x with users := if join then x.users + 1 else x.users - 1 } }

/-- The count of 0x5000 that a descriptor stands in beside `valid`: idle, resident or running (R343). -/
def Sess.countSub (d : Sess) : Nat := 2 + d.state

/-- One session more or less in the counts of 0x5000 (R343). -/
def State.countSess (s : State) (d : Sess) (more : Bool) : State :=
  if d.valid then
    let f (s : State) (sub : Nat) : State := s.setVal 0x5000 sub (if more then s.val 0x5000 sub + 1 else s.val 0x5000 sub - 1)
    f (f s 1) d.countSub
  else s

/-- Replace a descriptor: the working copy, where there is one, and the table block (R326); USERS and the counts follow (R330). -/
def State.setSess (s : State) (i : Nat) (d : Sess) : State :=
  let o := s.sess i
  let s := ((s.useAdapter o.uses false).useAdapter d.uses true).countSess o false |>.countSess d true
  let ready := match s.copyOf i with
    | some r => s.ready.put i { r with d := d }
    | none => s.ready
  { s with ready := ready, mem := s.mem.writeWords (sessAddr i) d.words }

end Sys2Proof.Machine
end

