-- ==== Sys2Proof/Machine/Flits.lean ====
section
/-! DEFINITION. Jizia flits and a port's link layer (R355 to R358, R363): the fields of a flit, what a port sends and in which order, its credits
and the replay buffer. -/

namespace Sys2Proof.Machine

/-! ### Flits (R355, R356) -/

/-- TYPE. -/
def Flit.typ (f : Sys2Proof.Flit) : Nat := bits f.header 71 69
/-- CLASS is Scheduled. -/
def Flit.sched (f : Sys2Proof.Flit) : Bool := bit f.header 68
/-- DCHIP. -/
def Flit.dchip (f : Sys2Proof.Flit) : Nat := bits f.header 67 52
/-- Valid payload nonets. -/
def Flit.nv (f : Sys2Proof.Flit) : Nat := bits f.header 51 46 + 1
/-- VC of an Open flit. -/
def Flit.vc (f : Sys2Proof.Flit) : Bool := bit f.header 45
/-- The Open address field. -/
def Flit.addr (f : Sys2Proof.Flit) : Nat := bits f.header 43 0
/-- FLOW. -/
def Flit.flow (f : Sys2Proof.Flit) : Nat := bits f.header 45 34
/-- WORD. -/
def Flit.wordNo (f : Sys2Proof.Flit) : Nat := bits f.header 33 24
/-- DUE. -/
def Flit.due (f : Sys2Proof.Flit) : Nat := bits f.header 23 0
/-- SEQ. -/
def Flit.seq (f : Sys2Proof.Flit) : Nat := bits f.trailer 63 52
/-- ACK. -/
def Flit.ack (f : Sys2Proof.Flit) : Nat := bits f.trailer 51 40
/-- The credit class a flit uses: Open VC 0, Open VC 1, Scheduled; 3 for a control flit, which uses none (R357). -/
def Flit.credit (f : Sys2Proof.Flit) : Nat := if Flit.typ f = 5 then 3 else if Flit.sched f then 2 else b2n (Flit.vc f)

/-- The payload's valid nonets with their poison. -/
def Flit.data (f : Sys2Proof.Flit) : List PNt :=
  (f.payload.zipIdx.flatMap fun e => wordNts e.1 (nbit (bits f.trailer 71 64) e.2)).take (Flit.nv f)

/-- One bit of CRC-32 with the generator of IEEE 802.3, the register's high bit first. -/
def crc32Step (r : Nat) (b : Bool) : Nat :=
  let t := nbit r 31 != b
  let r := (r * 2) % 2 ^ 32
  if t then r ^^^ 0x04C11DB7 else r

/-- Feed bits [k−1:0] of a number, the highest first. -/
def crc32Feed (v : Nat) : Nat → Nat → Nat
  | 0, r => r
  | k + 1, r => crc32Feed v k (crc32Step r (nbit v k))

/-- The CRC of a flit (R356): the header, the payload words in order and the trailer above the CRC, each from its high bit (log 48). -/
def Flit.crcOf (f : Sys2Proof.Flit) : Nat :=
  let r := crc32Feed f.header.toNat 72 0xFFFFFFFF
  let r := f.payload.foldl (fun r w => crc32Feed w.toNat 72 r) r
  crc32Feed (bits f.trailer 71 32) 40 r ^^^ 0xFFFFFFFF

/-- A flit is whole: eight payload words, and its CRC holds. -/
def Flit.crcOk (f : Sys2Proof.Flit) : Bool := f.payload.length == 8 && Flit.crcOf f == bits f.trailer 31 0

/-- KIND of a control flit (R357). -/
def Flit.kind (f : Sys2Proof.Flit) : Nat := bits (f.payload.headD 0) 71 64

/-- A flit that takes a place in the link's sequence: every one but idle flits and NAKs, and INIT and CAL, which go before a port is Up
(log 44). -/
def Flit.sequenced (f : Sys2Proof.Flit) : Bool :=
  !(Flit.typ f == 6 || (Flit.typ f == 5 && decide (Flit.kind f ≤ 3)))

/-! ### Flits of this chip (R355, R357) -/

/-- The flit that carries up to 64 nonets (R355, R356); `low` are header bits 45 to 0. -/
def flitOf (typ : Nat) (sched : Bool) (dchip low : Nat) (data : List PNt) : Sys2Proof.Flit :=
  let ws := (chunks 8 data).map fun g => BitVec.ofNat 72 (ntVal g)
  let poison := (((chunks 8 data).zipIdx.map fun e => if anyPoison e.1 then 2 ^ e.2 else 0).foldl (· + ·) 0)
  ⟨packWord [(typ, 69), (b2n sched, 68), (dchip % 65536, 52), (max 1 data.length - 1, 46), (low, 0)], ws ++ List.replicate (8 - ws.length) 0,
    BitVec.ofNat 72 (poison * 2 ^ 64)⟩

/-- The payload of a control flit: KIND stands in word 0, and its other bits are open. -/
def ctlWords (kind : Nat) (ws : List Word) : List Word :=
  let l := (List.range 8).map fun i => ws.getD i 0
  BitVec.ofNat 72 (kind * 2 ^ 64 + (l.headD 0).toNat % 2 ^ 64) :: l.drop 1

/-- The control flits of a kind for a chip (R357, R440): as many as what they carry needs. -/
def ctlFlits (kind dchip : Nat) (info : List Int) : List Sys2Proof.Flit :=
  (Config.ctlPayload kind info :: Config.ctlMore kind info).map fun ws =>
    ⟨packWord [(5, 69), (dchip % 65536, 52), (63, 46)], ctlWords kind ws, 0⟩

/-- An idle flit (R357). -/
def idleFlit : Sys2Proof.Flit := ⟨packWord [(6, 69)], List.replicate 8 0, 0⟩

/-! ### The link layer (R357, R358, R363) -/

/-- A port carries flits: Up, Open-only, or what is left in Draining. -/
def JPort.carries (j : JPort) : Bool := j.st == 3 || j.st == 4 || j.st == 6

/-- Flits up to SEQ `a` are acknowledged. -/
def JPort.acked (j : JPort) (a : Nat) : JPort :=
  match j.replay.findIdx? fun f => Flit.seq f.flit == a with
  | some i => { j with replay := j.replay.drop (i + 1) }
  | none => j

/-- Credit comes back. -/
def JPort.credited (j : JPort) (cls n : Nat) : JPort :=
  match cls with
  | 0 => { j with crd0 := j.crd0 + n }
  | 1 => { j with crd1 := j.crd1 + n }
  | 2 => { j with crdS := j.crdS + n }
  | _ => j

/-- Credit held for a class. -/
def JPort.crd (j : JPort) (cls : Nat) : Nat := match cls with | 0 => j.crd0 | 1 => j.crd1 | _ => j.crdS

/-- The credits that the next flit returns: their class and number, at most 15. -/
def JPort.owes (j : JPort) : Nat × Nat :=
  match j.owed with
  | [] => (0, 0)
  | c :: _ => (c, min 15 ((j.owed.takeWhile (· == c)).length))

/-- A flit as a port sends it: with the port's SEQ, ACK and CRD, and its CRC. -/
def JPort.stamp (j : JPort) (f : Sys2Proof.Flit) : Sys2Proof.Flit :=
  let (c, n) := j.owes
  let up := packWord [(bits f.trailer 71 64, 64), (j.sendSeq, 52), ((j.recvSeq + 4095) % 4096, 40), (n, 36), (c, 34)]
  let g := { f with trailer := up }
  { g with trailer := BitVec.ofNat 72 (up.toNat + Flit.crcOf g) }

/-- A port sends one flit of the head of a class, and keeps it for a re-send. -/
def State.sendFlit (s : State) (p : Nat) (q : Queued) : State :=
  let j := s.jport p
  let g := j.stamp q.flit
  let k := Flit.credit q.flit
  let j := { j with
    replay := j.replay ++ [⟨g, none, q.by_⟩], sendSeq := (j.sendSeq + 1) % 4096, owed := j.owed.drop j.owes.2
    crd0 := if k = 0 then j.crd0 - 1 else j.crd0, crd1 := if k = 1 then j.crd1 - 1 else j.crd1, crdS := if k = 2 then j.crdS - 1 else j.crdS }
  let s := { s.setJport p j with out := s.out ++ [.flit p g] }
  if Flit.sched q.flit then s.bump (0x1200 + p) 0xD 1 else s

/-- The first Open flit whose virtual channel has credit leaves next. -/
def JPort.nextOpen (j : JPort) : Option (Queued × JPort) :=
  (takeFirst (fun g => decide (0 < j.crd (Flit.credit g.flit))) j.openQ).map fun e => (e.1, { j with openQ := e.2 })

/-- The flit that leaves a port next: control flits first, then Scheduled before Open, where its class has credit; a flit leaves only while
the replay buffer has room (R357, R358, R363). No Scheduled flit leaves a port that is Open-only (R368). -/
def JPort.next (j : JPort) : Option (Queued × JPort) :=
  if !j.carries || 1024 ≤ j.replay.length then none
  else
    match j.ctlQ, j.schedQ with
    | f :: r, _ => some (⟨f, none, none⟩, { j with ctlQ := r })
    | [], f :: r => if decide (0 < j.crdS) && j.st != 4 then some (f, { j with schedQ := r }) else j.nextOpen
    | [], [] => j.nextOpen

/-- A flit that takes no place in the link's sequence leaves a port at once, with its ACK and the credits it returns (R357). -/
def State.sendBare (s : State) (p : Nat) (f : Sys2Proof.Flit) : State :=
  let j := s.jport p
  { s.setJport p { j with owed := j.owed.drop j.owes.2 } with out := s.out ++ [.flit p (j.stamp f)] }

/-- The credit of a receive buffer that is free again goes back to the peer of its port, with an idle flit (R357, R361). -/
def State.owe (s : State) (o : Option (Nat × Nat)) : State :=
  match o with
  | none => s
  | some (p, c) =>
    let j := s.jport p
    let t := s.setJport p { j with owed := j.owed ++ [c] }
    if j.carries then t.sendBare p idleFlit else t

/-- Flits leave a port while they can; one in transit frees the receive buffer it has held. -/
def State.pump (p : Nat) : Nat → State → State
  | 0, s => s
  | n + 1, s =>
    match (s.jport p).next with
    | some (f, j) => State.pump p n (((s.setJport p j).sendFlit p f).owe f.owes)
    | none => s

/-- Everything that can leave a port leaves. -/
def State.pumpAll (s : State) (p : Nat) : State :=
  let j := s.jport p
  State.pump p (j.ctlQ.length + j.schedQ.length + j.openQ.length) s

/-- Everything that can leave a port leaves; where nothing does, an idle flit carries the ACK and the credits (R357). -/
def State.pumpIdle (s : State) (p : Nat) : State :=
  let t := s.pumpAll p
  if t.out.length = s.out.length && (s.jport p).carries then t.sendBare p idleFlit else t

/-- Put a Scheduled flit in DUE order (R363). -/
def insertDue (f : Queued) : List Queued → List Queued
  | [] => [f]
  | g :: gs => if sgn 24 ((Flit.due f.flit + 2 ^ 24 - Flit.due g.flit) % 2 ^ 24) < 0 then f :: g :: gs else g :: insertDue f gs

end Sys2Proof.Machine
end

