-- ==== Sys2Proof/Machine/Conv.lean ====
section
/-! DEFINITION. The conversions between octets and nonets of host windows and KV copies (R397). -/

namespace Sys2Proof.Machine

/-- Octets of a run of whole groups of 8 nonets, packed: 9 octets a group (R397). -/
def packOctets (l : List PNt) : List (BitVec 8) := (chunks 8 l).flatMap fun g => toOctets 9 (ntVal g)

/-- Nonets of packed octets (R397). -/
def unpackOctets (l : List (BitVec 8)) : List PNt := (chunks 9 l).flatMap fun g => ntsOf 8 (ofOctets g) false

/-- Octets of words, packed. -/
def packWords (l : List Word) : List (BitVec 8) := l.flatMap fun w => toOctets 9 w.toNat

/-- Words of packed octets. -/
def unpackWords (l : List (BitVec 8)) : List Word := (chunks 9 l).map fun g => BitVec.ofNat 72 (ofOctets g)

/-- Octets of a run of nonets under a window's CONV: 0 packed, 1 widened, 2 octet (R397). -/
def toHost (conv : Nat) (l : List PNt) : List (BitVec 8) :=
  match conv with
  | 0 => packOctets l
  | 1 => l.flatMap fun n => toOctets 2 n.v.toNat
  | _ => l.map fun n => BitVec.ofNat 8 n.v.toNat

/-- Nonets of octets under a window's CONV; `none` where a widened octet pair holds a bit above the nonet (R397). -/
def ofHost (conv : Nat) (l : List (BitVec 8)) : Option (List PNt) :=
  match conv with
  | 0 => some (unpackOctets l)
  | 1 =>
    let v := (chunks 2 l).map ofOctets
    if v.any fun n => decide (512 ≤ n) then none else some (v.map fun n => ⟨BitVec.ofNat 9 n, false⟩)
  | _ => some (l.map fun o => ⟨BitVec.ofNat 9 o.toNat, false⟩)

/-- The offset and length of an access follow the rule of its CONV (R397). -/
def convAligned (conv off len : Nat) : Bool :=
  match conv with
  | 0 => off % 9 == 0 && len % 9 == 0
  | 1 => off % 2 == 0 && len % 2 == 0
  | _ => true

/-- The nonet offset of an octet offset, and the nonets of a length. -/
def convNts (conv n : Nat) : Nat :=
  match conv with
  | 0 => n / 9 * 8
  | 1 => n / 2
  | _ => n

end Sys2Proof.Machine
end

