-- ==== Sys2Proof/Machine/Sessions.lean ====
section
/-! DEFINITION. Session commands (R323 to R335): the places of the ready store, the commands' effects and refusals, and the order in which they
apply. -/

namespace Sys2Proof.Machine

/-! ### The ready store (R323, R326) -/

/-- Places of the ready store in use, those of RESTOREs in hand included (R326). -/
def State.placesUsed (s : State) : List Nat :=
  s.ready.entries.map (·.2.place) ++ (s.moving.entries.filter fun e => e.2.cmd == 3).map (·.2.image)

/-- The lowest free place of the ready store; `none`: it is full (R326). -/
def State.freePlace (s : State) : Option Nat :=
  let l := s.placesUsed
  if 65536 ≤ l.length then none else (List.range (l.length + 1)).find? fun k => !(l.contains k)

/-- The block of a session's descriptor arrived poisoned: FAILED is set in the working copy (R323). -/
def State.arriveSess (s : State) (i : Nat) : State :=
  if (s.copyOf i).isNone && s.mem.poisoned (sessAddr i) && (s.sess i).valid && !(s.sess i).failed then
    ((s.setSess i { s.sess i with failed := true }).bump 0x5000 8 1).logChip 0x0203 0xFF i
  else s

/-! ### Completions of session commands (R328, R391) -/

/-- A session command completes with its session's number and generation (log 26); a status other than OK is counted (R331). -/
def State.answerCmd (s : State) (c : SCmd) (status : Nat) : State :=
  let h := s.queue c.queue
  let s := if status = 0 then s else s.bump 0x5000 7 1
  match takeFirst (fun e => e.2 == c.tag) h.active with
  | none => s
  | some r =>
    let s := s.setQueue c.queue { h with active := r.2 }
    if c.cmd ≤ 5 then s.post c.queue ⟨c.tag, status, 0, Config.noResult c.tag, 0, c.number, (s.sess c.number).gen⟩
    else s.post c.queue ⟨c.tag, status, 0, Config.noResult c.tag, 0, 0, 0⟩

/-- A session dies: FAILED is set, it goes to Idle and its place is freed (R338, R451). -/
def State.killSess (s : State) (i : Nat) : State :=
  let s := s.setSess i { s.sess i with failed := true, state := 0, drain := false }
  (({ s with ready := s.ready.erase i }).bump 0x5000 8 1).logChip 0x0203 0xFF i

/-- A session leaves for Idle; its working copy goes. -/
def State.toIdle (s : State) (i : Nat) (kept : Bool) : State :=
  let s := s.setSess i { s.sess i with state := 0, drain := false, kept := kept }
  { s with ready := s.ready.erase i }

/-! ### KV copies on their way (R329, R382) -/

/-- The RDMA READs of a queue's QP that the host has not answered. -/
def State.readsOut (s : State) (q : Nat) : Nat :=
  (s.moving.entries.filter fun e => e.2.cmd == 3 && e.2.queue == q && !(s.readWait.contains e.1)).length

/-- The copy of a RESTORE is asked for. -/
def State.askCopy (s : State) (i : Nat) (c : SCmd) : State :=
  s.sendHost c.queue 16 (.rdmaRead c.queue c.va c.rkey ((s.sess i).kvSize / 8 * 9))

/-- A RESTORE begins to move its session's copy; of a QP 16 at most are outstanding, and more wait (R382). -/
def State.beginRead (s : State) (c : SCmd) : State :=
  let t := { s with moving := s.moving.put c.number c }
  if s.readsOut c.queue < 16 then t.askCopy c.number c else { t with readWait := s.readWait ++ [c.number] }

/-- Copies that wait are asked for, as far as their QPs may (R382). -/
def State.pumpReads (s : State) : State :=
  s.readWait.foldl (fun s i =>
    match s.moving.entries.find? fun e => e.1 == i with
    | none => { s with readWait := s.readWait.erase i }
    | some e => if s.readsOut e.2.queue < 16 then { s with readWait := s.readWait.erase i }.askCopy i e.2 else s) s

/-- A copy is no longer on its way. -/
def State.endMove (s : State) (i : Nat) : State := { s with moving := s.moving.erase i, readWait := s.readWait.erase i }.pumpReads

/-! ### EVICT and DELETE (R329, R335, R388) -/

/-- A block of a range reads as poisoned. -/
def Mem.anyPoisonIn (m : Mem) (a n : Nat) : Bool :=
  (m.marks.entries.any fun e => decide (a < 64 * e.1 + 64) && decide (64 * e.1 < a + n)) ||
    m.mirrors.any fun r => r.state == 2 && decide (r.primary < a + n) && decide (a < r.primary + r.size)

/-- An EVICT goes on with a session that no step uses: with KEEP it is kept with no copy; with a host address its KV is written to the
host; else it is Idle with no copy (log 27). A poisoned KV block ends the session (R388). -/
def State.evictNow (s : State) (c : SCmd) : State :=
  let d := s.sess c.number
  if c.keep || !c.host then (s.toIdle c.number c.keep).answerCmd c 0
  else if s.mem.anyPoisonIn d.kvAddr d.kvSize then (s.killSess c.number).answerCmd c 8
  else
    let s := s.setSess c.number { d with state := 1, drain := true }
    let data := packOctets (s.mem.read d.kvAddr d.kvSize)
    { s with moving := s.moving.put c.number c }.sendHost c.queue data.length (.rdmaWrite c.queue c.va c.rkey data)

/-- A DELETE goes on: VALID and FAILED are cleared and the place freed (R329). -/
def State.deleteNow (s : State) (c : SCmd) : State :=
  let s := s.setSess c.number { s.sess c.number with valid := false, state := 0, drain := false, failed := false }
  ({ s with ready := s.ready.erase c.number }).answerCmd c 0

/-- The command for which a session drained goes on. -/
def State.drained (s : State) (c : SCmd) : State := if c.cmd = 5 then s.deleteNow c else s.evictNow c

/-- The session is in a step that has not committed (R335). -/
def State.inStep (s : State) (i : Nat) : Bool :=
  s.progs.entries.any fun p => p.2.running && p.2.slotSess.any fun e => e.1 == i && e.2 == (s.sess i).gen

/-! ### Commands (R328 to R331, R333) -/

/-- ADPT_EN is set and the adapter is not valid, or serves another base model (R329). -/
def State.noAdapter (s : State) (d : Sess) : Bool :=
  d.adptEn && (!(s.adapter d.adapter).valid || (s.adapter d.adapter).base != d.base)

/-- The KV copy of a session is on its way from the host: it is no longer Idle, and not yet Resident (log 28). -/
def State.restoring (s : State) (i : Nat) : Bool := s.moving.entries.any fun e => e.1 == i && e.2.cmd == 3

/-- The status of a command before R331's last step: `none` goes on. A SET that applies while its session drains has arrived before the command that
drains it, for later ones wait behind that (R328). -/
def State.cmdStatus (s : State) (c : SCmd) : Option Nat :=
  let d := s.sess c.number
  if c.cmd = 1 then (if d.failed then some 8 else if d.valid then some 1 else none)
  else if 6 ≤ c.cmd then none
  else if !d.valid then some 9
  else if c.gen ≠ d.gen then some 2
  else if d.failed && c.cmd ≠ 5 then some 8
  else
    match c.cmd with
    | 2 => if d.drain && !(s.draining.entries.any fun e => e.1 == c.number) then some 1 else none
    | 3 => if d.state = 0 && !(s.restoring c.number) then none else some 9
    | 4 => if d.state = 0 then some 9 else if d.drain then some 1 else none
    | _ => match s.draining.entries.find? fun e => e.1 == c.number with
        | some e => if e.2.cmd = 5 then some 1 else none
        | none => none

/-- CREATE (R329, R330). -/
def State.cmdCreate (s : State) (c : SCmd) : State :=
  let o := s.sess c.number
  let i := Sess.ofWords (s.mem.readWords c.image 8)
  let d : Sess := { i with
    valid := true, state := 0, drain := false, failed := o.failed, missed := false, kept := false
    gen := (o.gen + 1) % 65536, deadline := 0, position := 0 }
  if s.noAdapter d then s.answerCmd c 3 else (s.setSess c.number d).answerCmd c 0

/-- SET (R329, R388). -/
def State.cmdSet (s : State) (c : SCmd) : State :=
  let o := s.sess c.number
  let i := Sess.ofWords (s.mem.readWords c.image 8)
  let f (k : Nat) : Bool := nbit c.fields k
  let d : Sess := { o with
    prio := if f 0 then i.prio else o.prio
    deadline := if f 1 then i.deadline else o.deadline
    interval := if f 2 then i.interval else o.interval
    adapter := if f 3 then i.adapter else o.adapter
    adptEn := if f 3 then i.adptEn else o.adptEn
    qp := if f 4 then i.qp else o.qp
    user := if f 5 then i.user else o.user
    samp5 := if f 6 then i.samp5 else o.samp5
    samp6 := if f 6 then i.samp6 else o.samp6
    samp7 := if f 6 then i.samp7 else o.samp7 }
  if s.noAdapter d then s.answerCmd c 3 else (s.setSess c.number d).answerCmd c 0

/-- A session becomes Resident in a place of the ready store. -/
def State.toResident (s : State) (i place : Nat) : State :=
  let d := { s.sess i with state := 1, kept := false }
  let s := { s with ready := s.ready.put i ⟨place, s.sess i, none⟩ }
  s.setSess i d

/-- RESTORE (R329): a place is taken; with a host address the KV copy is read first. `image` then holds the place. -/
def State.cmdRestore (s : State) (c : SCmd) : State :=
  let d := s.sess c.number
  match s.freePlace with
  | none => s.answerCmd c 4
  | some p =>
    if c.host then s.beginRead { c with image := p }
    else if !d.kept then s.answerCmd c 5
    else (s.toResident c.number p).answerCmd c 0

/-- EVICT and DELETE of a session that no step uses; a DELETE that finds a copy on its way ends the command that moves it (R335, log 28). -/
def State.cmdLeave (s : State) (c : SCmd) : State :=
  let s := match s.moving.entries.find? fun e => e.1 == c.number with
    | some e => (s.endMove c.number).answerCmd e.2 7
    | none => s
  s.drained c

/-- ALOAD and ADFREE (R331, R333). -/
def State.cmdAdapter (s : State) (c : SCmd) : State :=
  let a := c.number % 16384
  let x := s.adapter a
  if 0 < x.users then s.answerCmd c 1
  else if c.cmd = 7 then
    if !x.valid then s.answerCmd c 9
    else { s.setVal 0x5100 1 (s.val 0x5100 1 - 1) with adapters := s.adapters.put a .reset }.answerCmd c 0
  else
    let w := s.mem.readWords c.image 2
    let w0 := w.getD 0 0
    let e : Adapter := ⟨true, bits w0 70 68, sgn 9 (bits w0 67 59), bits w0 58 51, bits w0 50 45, 0, bits (w.getD 1 0) 43 0⟩
    let s := if x.valid then s else s.setVal 0x5100 1 (s.val 0x5100 1 + 1)
    { s with adapters := s.adapters.put a e }.answerCmd c 0

/-- The command is the one for which its session drains. -/
def State.isDraining (s : State) (c : SCmd) : Bool := s.draining.entries.any fun e => e.1 == c.number && e.2 == c

/-- A session ends its drain: it leaves Running with the state of its last commit (R335). -/
def State.endDrain (s : State) (i : Nat) : State :=
  let d := s.sess i
  { s with draining := s.draining.erase i }.setSess i { d with state := if d.state = 2 then 1 else d.state }

/-- A Running session enters Draining: the command waits for the step's commit, in its turn. A DELETE ends the EVICT that drains the session
(R335). -/
def State.beginDrain (s : State) (c : SCmd) : State :=
  let s := match s.draining.entries.find? fun e => e.1 == c.number with
    | some e => { s with cmds := s.cmds.erase e.2 }.answerCmd e.2 7
    | none => s
  { s.setSess c.number { s.sess c.number with drain := true } with
    draining := s.draining.put c.number c, cmds := s.cmds ++ [c] }

/-- An EVICT or DELETE that is accepted names a Running session whose step has not committed: it drains the session (R335). -/
def State.leaves (s : State) (c : SCmd) : Bool :=
  (c.cmd == 4 || c.cmd == 5) && (s.sess c.number).state == 2 && (s.cmdStatus c).isNone && s.inStep c.number

/-- A command is applied (R328, R331); one that drained its session goes on (R335). -/
def State.applyCmd (s : State) (c : SCmd) : State :=
  let s := if c.cmd ≤ 5 then s.arriveSess c.number else s
  if s.isDraining c then (s.endDrain c.number).drained c
  else if s.leaves c then s.beginDrain c
  else
    match s.cmdStatus c with
    | some st => s.answerCmd c st
    | none =>
      match c.cmd with
      | 1 => s.cmdCreate c
      | 2 => s.cmdSet c
      | 3 => s.cmdRestore c
      | 4 | 5 => s.cmdLeave c
      | _ => s.cmdAdapter c

/-- A command waits on: it drains its session, whose step has not committed (R335), or an earlier one of its session waits. -/
def State.cmdWaits (s : State) (c : SCmd) : Bool :=
  (s.isDraining c && s.inStep c.number) || (decide (c.cmd ≤ 5) && s.cmds.any fun k => decide (k.cmd ≤ 5) && k.number == c.number)

/-- One command that has waited is applied, or waits on. -/
def State.nextCmd (s : State) (c : SCmd) : State := if s.cmdWaits c then { s with cmds := s.cmds ++ [c] } else s.applyCmd c

/-- Apply the commands that wait, in arrival order (R328, R339 step 2). -/
def State.applyCmds (s : State) : State := s.cmds.foldl State.nextCmd { s with cmds := [] }

/-- A serving program runs a step: commands wait for its boundary (R328). In an empty hold they do not (R341). -/
def State.servingStep (s : State) : Bool :=
  s.progs.entries.any fun p => p.2.running && p.2.batch.isSome && !(p.2.stalls.contains .hold)

/-- Once no serving program runs a step, the commands that waited for its boundary apply (R328). -/
def State.resumeCmds (s : State) : State := if s.servingStep then s else s.applyCmds

/-- A command reaches the sequencer (R328, R335, R390): an EVICT or DELETE that drains a Running session begins at once (log 29). -/
def State.arriveCmd (s : State) (c : SCmd) : State :=
  if s.leaves c then s.beginDrain c
  else if s.servingStep then { s with cmds := s.cmds ++ [c] }
  else s.applyCmd c

/-- A begun command ends with DISCARDED and without effect: it no longer waits, drains its session or moves its copy (R519). -/
def State.cancelCmd (s : State) (c : SCmd) : State :=
  let s := { s with cmds := s.cmds.erase c }
  let s := if s.isDraining c then { s with draining := s.draining.erase c.number }.setSess c.number { s.sess c.number with drain := false } else s
  let s := if s.moving.entries.any fun e => e.1 == c.number && e.2.queue == c.queue && e.2.tag == c.tag && e.2.cmd == c.cmd then
      let s := s.endMove c.number
      if c.cmd = 4 then s.setSess c.number { s.sess c.number with drain := false } else s
    else s
  s.answerCmd c 7

end Sys2Proof.Machine
end

