-- ==== Sys2Proof/Machine/Ends.lean ====
section
/-! DEFINITION. The end of a program, its errors, remount triggers, whole-machine stalls and training overflows (R79, R87, R92, R93, R212 to
R216, R298, R347, R411, R419, R424, R442 to R447). -/

namespace Sys2Proof.Machine

/-! ### Scheduled flits of a program (R321, R360, R361, R444) -/

/-- The program and flow-table entry of a Scheduled flit at a station (R360). -/
def State.flowOf (s : State) (station flow : Nat) : Option (Nat × Prog × Flow) :=
  s.progs.entries.findSome? fun e =>
    (e.2.slots.flows.find? fun x => x.station == station && x.flow == flow).map fun x => (e.1, e.2, x)

/-- The program's cycle count (R347). -/
def State.progCycle (s : State) (p : Prog) : Nat := s.cyc - p.base - p.stallCycles

/-- D of a Scheduled flit (R360). -/
def State.flitAhead (s : State) (pr : Prog) (f : Sys2Proof.Flit) : Int :=
  sgn 24 ((Flit.due f + 2 ^ 24 - s.progCycle pr % 2 ^ 24) % 2 ^ 24)

/-- A station has room in its timing buffer, which holds 2,048 flits (R360). -/
def State.stationRoom (s : State) (p : Nat) : Bool := decide ((s.timing.filter fun t => t.station == p).length < 2048)

/-- A flit enters the timing buffer of its station (R360); one whose DUE has come, in the present cycle. -/
def State.enterTiming (s : State) (p n : Nat) (pr : Prog) (f : Sys2Proof.Flit) : State :=
  { s with timing := s.timing ++ [⟨p, n, Flit.flow f, Flit.wordNo f, s.progCycle pr + (s.flitAhead pr f).toNat, Flit.data f⟩] }

/-- The first flit that waits in a port for room in its station enters, where there is room, and its credit goes back (R361); one of no program is
discarded. -/
def State.letIn (s : State) (p : Nat) : State :=
  match takeFirst (fun e => e.1 == p) s.inbox with
  | none => s
  | some ((_, f), rest) =>
    let t := { s with inbox := rest }
    match s.flowOf p (Flit.flow f) with
    | none => t.owe (some (p, 2))
    | some (n, pr, _) => if s.stationRoom p then (t.owe (some (p, 2))).enterTiming p n pr f else s

/-- The FLOW numbers under which a program's ends of class 2 send (R360). -/
def State.sendFlows (s : State) (p : Prog) : List Nat :=
  p.cores.flatMap fun c => ((s.core c).me.ends.entries.filter fun e => e.2.cls == 2 && e.2.role != 2).map fun e =>
    Config.flowName p.digest c e.1 % 4096

/-- The Scheduled flits of a program that this chip holds are discarded (R321, R361, R444): those in timing buffers, in parts of records, in ports that
wait for room in a timing buffer, whose credit goes back, and those of its own ends that have not left. What else waits for room enters. -/
def State.dropFlits (s : State) (n : Nat) (p : Prog) : State :=
  let mine (e : Nat × Sys2Proof.Flit) : Bool := match s.flowOf e.1 (Flit.flow e.2) with | some (k, _) => k == n | none => false
  let names := s.sendFlows p
  let t := { s with
    timing := s.timing.filter fun f => f.prog != n
    parts := s.parts.filter fun f => f.prog != n
    inbox := s.inbox.filter fun e => !(mine e)
    jports := s.jports.mapVals fun _ j => { j with schedQ := j.schedQ.filter fun q => q.owes.isSome || !(names.contains (Flit.flow q.flit)) } }
  let t := (s.inbox.filter mine).foldl (fun s e => s.owe (some (e.1, 2))) t
  (t.inbox.map (·.1)).foldl State.letIn t

/-! ### The end of a program (R79, R87, R92, R93, R411) -/

/-- What an engine of a stopped program holds: nothing is queued, held or in flight; `st` is Halted or Off. -/
def Engine.halt (g : Engine) : Engine :=
  { g with
    st := if g.st = .off then .off else .halted
    ctxs := g.ctxs.mapVals fun _ k => { k with
      queue := [], held := none, scheduled := false, waited := false, headMask := none, buf := [], levels := [], skip := 0 }
    boundary := false
    haltPend := false }

/-- A core stops: its engines go to Halted and its in-flight work is discarded (R79, R93, R444 step 2). The cycles of a hold of the ME that it
ends are counted (R298). -/
def Core.stopWork (c : Core) : Core :=
  let c := (c.meFree c.now).mend (c.bgAt + 1)
  { c with
    engs := c.engs.mapVals fun _ g => g.halt
    infl := []
    pend := []
    bgAt := 0
    te := { c.te with
      sends := [], outb := [], net := [], landing := [], fill := 0, lightq := [], localFree := 0, nearFree := 0, sendFree := 0
      dq := c.te.dq.keep fun _ => false }
    ope := { c.ope with drain := none, busyFrom := 1, busyTo := 0, preloadTo := 0 }
    mve := { c.mve with streams := [] }
    me := { c.me with
      staging := [], combFree := 0, bkind := 0, bend := 0, bmask := 0, waits := []
      ends := c.me.ends.mapVals fun _ e => { e with ret := [], blocked := false } } }

/-- A core is released from its program: PROFILE reads 0b11 and the pads are zero (R46, R71), and no request awaits a remount (R218). -/
def Core.release (c : Core) : Core :=
  { c.stopWork with
    prog := none, profile := 3, opePad := 0, vePad := 0, train := { c.train with widenPend := false, firstGroup := 0 } }

/-- Complete a ticket. -/
def State.endTicket (s : State) (t : Option Ticket) (status : Nat) (value : Option Nat) : State :=
  match t with
  | some k => s.complete k.queue k.tag status value
  | none => s

/-- The rest counters of the stacks of a program that has begun run free from their values (R254). -/
def State.freeRest (s : State) (p : Prog) : State :=
  let now := s.cyc - p.base - p.stallCycles
  if !p.running then s
  else { s with rest := s.rest.zipIdx.map fun e => if p.nearStacks.contains e.2 then now else e.1 }

/-- A Running session of a base model that no longer has a serving program becomes Resident (DESIGN CHOICE, log 24). -/
def State.freeBatch (s : State) (p : Prog) : State :=
  p.slotSess.foldl (fun s e =>
    let d := s.sess e.1
    if d.valid && d.gen == e.2 && d.state == 2 then s.setSess e.1 { d with state := 1 } else s) s

/-- A program is taken down: its cores are released, its segments are unbound and unsealed, its number is free, and its START completes
with a STATUS and VALUE (R87, R411). A STOP that waits completes OK (R93). -/
def State.closeProg (s : State) (n status : Nat) (value : Option Nat) : State :=
  match s.prog n with
  | none => s
  | some p =>
    let s := (s.freeRest p).dropFlits n p
    let s := p.cores.foldl (fun s c => s.setCore c (s.core c).release) s
    let s := s.freeBatch p
    let s := { s with
      progs := s.progs.erase n
      dropped := s.dropped.filter fun d => !(p.slotSess.contains d)
      frz := if s.frz = 1 && s.val 0x9000 1 == 2 && s.val 0x9000 2 == n then 5 else s.frz }
    (s.endTicket p.start status value).endTicket p.stop 0 none

/-- The state of vetting runs, 0x7200.08 (R463). -/
def State.setVet (s : State) (v : Option Vet) (st : Nat) : State := { s.setVal 0x7200 8 st with vet := v }

/-- A program that a vetting run names has ended. DESIGN CHOICE (log 33): an armed Patterns run starts, as it then names no running program (R458); a Record or
Replay that is armed is given up; a replay whose twin has ended has Failed. -/
def State.vetOver (s : State) (n : Nat) : State :=
  match s.vet with
  | some v =>
    if v.prog != n || (v.running && v.action != 3) then s
    else if v.action = 1 then s.setVet (some { v with running := true }) 2
    else if v.running then (s.setVet none 4).logChip 0x0602 0xFF 4
    else s.setVet none 0
  | none => s

/-- A program ends (R87, R93, R411), and with the last serving one the session commands that waited for its steps apply (R328). -/
def State.endProg (s : State) (n status : Nat) (value : Option Nat) : State := ((s.closeProg n status value).vetOver n).resumeCmds

/-- Every engine of a core is Halted or Off (R87). -/
def Core.allDone (c : Core) : Bool :=
  (List.range 6).all fun e => match (c.eng e).st with | .off | .halted => true | _ => false

/-- A program that is being stopped ends once every engine is Halted: its START completes with DISCARDED, its STOP with OK (R93). -/
def State.settleStop (s : State) (n : Nat) : State :=
  match s.prog n with
  | some p => if p.stopping && p.cores.all (fun c => (s.core c).allDone) then s.endProg n 7 none else s
  | none => s

/-- The last committed step as events and completions report it (R454, R468). -/
def Prog.lastCommitted (p : Prog) : Nat := p.committed.getD (2 ^ 36 - 1)

/-- A program error stops its program on every core, sets PROG_ERR, is logged, and completes START with PROGERR (R79, R392,
R419, R465). -/
def State.programError (s : State) (n core : Nat) (e : PErr) (eng ctx pc detail : Nat) : State :=
  match s.prog n with
  | none => s
  | some p =>
    let s := s.log ⟨0, errCode e, 5, n, p.step, core, eng, ctx, pc, detail⟩
    let s := if e = .poisonedControl then s.bump 0x7020 9 1 else s
    let s := p.cores.foldl (fun s c => s.setCore c { s.core c with st := { (s.core c).st with progErr := true } }) s
    s.endProg n 11 (some (errCode e))

/-! ### Remount triggers (R442, R446, R447) and stalls (R424) -/

/-- A remount trigger is raised by a core of a program (R442). Once STEP_DONE has been sent, none is (R440), and once the chip has stopped for a
remount, none counts (R446). -/
def State.trigger (s : State) (n core : Nat) (t : Trig) (eng ctx pc detail : Nat) : State :=
  match s.prog n with
  | none => s
  | some p =>
    if p.doneSent || !p.running || p.stopping || p.remounting then s
    else
      let s := s.log ⟨0, t.code, 3, n, p.step, core, eng, ctx, pc, detail⟩
      s.setProg n { p with trigs := p.trigs ++ [t] }

/-- A cause of a whole-machine stall begins. -/
def Prog.stall (p : Prog) (c : Stall) : Prog := if p.stalls.contains c then p else { p with stalls := p.stalls ++ [c] }

/-- A cause ends. -/
def Prog.unstall (p : Prog) (c : Stall) : Prog := { p with stalls := p.stalls.filter (· != c) }

/-! ### Training overflow (R212 to R216) -/

/-- A store overflowed into a handle bound to group `g` in training mode: it is logged once per group and step, and a widening is requested where the
format, the policy and the limit let it. What it does to the core stands in Core.overflowed. -/
def State.overflow (s : State) (n core g eng ctx pc : Nat) : State :=
  match s.prog n with
  | none => s
  | some p =>
    let c := s.core core
    let grp := c.train.groups.get .reset g
    let logged (s : State) : State :=
      if p.overLogged.contains g then s
      else
        (s.log ⟨0, 0x0308, 3, n, p.step, core, eng, ctx, pc, g⟩).updProg n fun p => { p with overLogged := p.overLogged ++ [g] }
    if grp.maxfmt ≤ grp.fmt then logged s
    else if p.lat.policy = 1 then logged s
    else if p.lat.widenLimit ≤ p.stepWide then logged s
    else
      let s := s.updProg n fun p =>
        { p with widenReq := if p.widenReq.contains g then p.widenReq else p.widenReq ++ [g] }
      s.trigger n core .widening eng ctx pc g

end Sys2Proof.Machine
end

