-- ==== Sys2Proof/Machine/Link.lean ====
section
/-! DEFINITION. The flits that this chip sends (R355, R357, R360, R361, R363, R365, R371): the port by which each leaves and the queue it joins
there. -/

namespace Sys2Proof.Machine

/-- The virtual channel on which an Open flit goes on (R363): 1 once it has crossed the wrap link of a dimension, 0 on entering the next. -/
def State.nextVc (s : State) (from_ to_ : Nat) (f : Sys2Proof.Flit) : Bool :=
  s.wraps to_ || (from_ / 2 == to_ / 2 && Flit.vc f)

/-! ### What this chip sends -/

/-- A port takes Open flits: it is Up or Open-only (R371, R372). A Scheduled one waits in its port while this retrains, and is lost at one that is Down or
Disabled. -/
def JPort.takes (j : JPort) (sched : Bool) : Bool := if sched then j.st != 0 && j.st != 7 else j.st == 3 || j.st == 4

/-- A flit joins the queue of its class at the port by which it leaves (R363, R365), where the port takes it; an Open one of this chip starts on virtual
channel 0, or 1 where its first link is a wrap link. -/
def State.enqueue (s : State) (p : Nat) (q : Queued) : State :=
  let j := s.jport p
  if Flit.typ q.flit = 5 then
    if j.carries then (s.setJport p { j with ctlQ := j.ctlQ ++ [q.flit] }).pumpAll p else s
  else if !(j.takes (Flit.sched q.flit)) then s.owe q.owes
  else if Flit.sched q.flit then (s.setJport p { j with schedQ := insertDue q j.schedQ }).pumpAll p
  else (s.setJport p { j with openQ := j.openQ ++ [q] }).pumpAll p

/-- An Open flit that starts at this chip, on the virtual channel of its first link (R363). -/
def State.onVc (s : State) (p : Nat) (f : Sys2Proof.Flit) : Sys2Proof.Flit :=
  if Flit.typ f = 5 || Flit.sched f then f else { f with header := BitVec.ofNat 72 (setBit f.header.toNat 45 (s.wraps p)) }

/-- A flit of this chip leaves; `by_` names the instruction that sent an Open message or contribution. -/
def State.launchBy (s : State) (by_ : Option (Nat × Nat × Nat × Nat)) (f : Sys2Proof.Flit) : State :=
  match s.routePort (Flit.dchip f) with
  | none => s
  | some p => s.enqueue p ⟨s.onVc p f, none, by_⟩

/-- A flit of this chip leaves. -/
def State.launch (s : State) (f : Sys2Proof.Flit) : State := s.launchBy none f

/-- The control flits of a kind leave for another chip (R357, R440); nothing leaves for this one. -/
def State.sendCtl (s : State) (kind dchip : Nat) (info : List Int) : State := (ctlFlits kind dchip info).foldl State.launch s

/-- An Open flit of this chip leaves (R355). -/
def State.sendOpen (s : State) (by_ : Option (Nat × Nat × Nat × Nat)) (typ dchip addr : Nat) (data : List PNt) : State :=
  s.launchBy by_ (flitOf typ false dchip (addr % 2 ^ 44) data)

/-- A Scheduled flit of this chip leaves (R355, R360). -/
def State.sendSched (s : State) (typ dchip flow word due : Nat) (data : List PNt) : State :=
  s.launch (flitOf typ true dchip (flow % 4096 * 2 ^ 34 + word % 1024 * 2 ^ 24 + due % 2 ^ 24) data)

/-- The Scheduled flits by which a port is held back: where one waits for credit, no further class 2 traffic leaves an outbound buffer
(R361). -/
def State.backedUp (s : State) (chip : Nat) : Bool :=
  match s.routePort chip with
  | some p => !((s.jport p).schedQ.isEmpty)
  | none => false

end Sys2Proof.Machine
end

