-- ==== Sys2Proof/Machine/Work.lean ====
section
/-! DEFINITION. What the work of a core does to the rest of the part: its effects, what it sends to other chips, and how a command that
concerns a core takes place. -/

namespace Sys2Proof.Machine

/-! ### The effects of a core's work -/

/-- The credit of a release or pad goes back to its send end: at once on this chip, over the network to another (R305). -/
def State.returnCredit (s : State) (chip core endn words due : Nat) : State :=
  if chip = 0xFFFF || chip = s.chipId then
    let c := s.core core
    let e := c.me.endOf endn
    s.setCore core (c.setEnd endn { e with ret := e.ret ++ [(words, due)] })
  else { s with out := s.out ++ [.credit chip core endn words] }

/-- The credits of a combining queue go back to the sources of its round, at once on this chip, over the network to another (R317). -/
def State.returnComb (s : State) (core q sources due : Nat) : State :=
  let ends := s.cores.entries.flatMap fun k => k.2.me.ends.entries.filterMap fun e =>
    if e.2.role = 3 && e.2.pcore = core && e.2.pend = q && (e.2.pchip = 0xFFFF || e.2.pchip = s.chipId) then some (k.1, e.1, e.2) else none
  let away := (setBitsOf 64 sources).filter fun n => !(ends.any fun e => e.2.2.handle == n)
  let s := ends.foldl (fun s e => s.returnCredit 0xFFFF e.1 e.2.1 1 (if e.2.2.cls = 3 then 0 else due + 1 + e.2.2.dly)) s
  { s with out := s.out ++ away.map fun n => .combCredit core q n }

/-- The chip cycle in which core `c` stands in its cycle `t` (R347). -/
def State.cycleOf (s : State) (c t : Nat) : Nat :=
  match (s.core c).prog with
  | some n => (match s.prog n with | some p => p.base + p.stallCycles + t | none => s.cyc)
  | none => s.cyc

/-- The step number of a program, for a record (R465). -/
def State.stepOf (s : State) (n : Nat) : Nat := match s.prog n with | some p => p.step | none => 0

/-- One effect of the work of core `c` of program `n`. -/
def State.effect (n c : Nat) (s : State) : Eff → State
  | .err e eng ctx pc d => s.programError n c e eng ctx pc d
  | .trig t eng ctx pc d => s.trigger n c t eng ctx pc d
  | .event code eng ctx pc d => s.log ⟨0, code, tierOf code, n, s.stepOf n, c, eng, ctx, pc, d⟩
  | .word code eng ctx pc off => s.log ⟨0, code, tierOf code, n, s.stepOf n, c, eng, ctx, pc, s.chipId * 2 ^ 44 + scratchSize * c + off⟩
  | .count sub k => s.bump 0x7020 sub k
  | .overflow g eng ctx pc => s.overflow n c g eng ctx pc
  | .credit chip core endn w due => s.returnCredit chip core endn w due
  | .combCredit q sources due => s.returnComb c q sources due
  | .light dst at_ d => { s with light := s.light ++ [⟨c, dst, s.cycleOf c at_, d⟩] }

/-- Effects of the present cycle on behalf of core `c`, in order. -/
def State.effects (s : State) (c : Nat) (l : List Eff) : State :=
  l.foldl (State.effect ((s.core c).prog.getD 0) c) s

/-- The time counter `n` cycles ago. -/
def State.timeBefore (s : State) (n : Nat) : Nat := (2 * s.time + b2n s.half + 2 ^ 65 - n) / 2 % 2 ^ 64

/-- One effect of a core's work in its cycle `t`: its records carry the time of that cycle (R465). -/
def State.effectAt (n c : Nat) (s : State) (e : Nat × Eff) : State :=
  let r := State.effect n c { s with time := s.timeBefore (s.cyc - s.cycleOf c e.1) } e.2
  { r with time := s.time }

/-- The effects of a core's work, each in its cycle. -/
def State.effectsAt (s : State) (c : Nat) (l : List (Nat × Eff)) : State :=
  l.foldl (State.effectAt ((s.core c).prog.getD 0) c) s

/-- A chip field names this chip (R223). -/
def State.isHere (s : State) (chip : Nat) : Bool := chip == 0xFFFF || chip == s.chipId

/-- The peer chip and core of a channel send, where it is one. -/
def Core.sendPeer (k : Core) (d : Send) : Option MEnd :=
  match d.kind with
  | .msg e .. => some (k.me.endOf e)
  | .pad e .. => some (k.me.endOf e)
  | .comb e => some (k.me.endOf e)
  | _ => none

/-- A channel send leaves for another chip. -/
def State.goesOff (s : State) (k : Core) (d : Send) : Bool :=
  match k.sendPeer d with
  | some e => !(s.isHere e.pchip)
  | none => false

/-- The pieces of a record or contribution, one to a flit: each with the number of its first nonet. -/
def flitPieces (l : List PNt) : List (Nat × List PNt) := (chunks 64 l).zipIdx.map fun e => (64 * e.2, e.1)

/-- The flits of a send to another chip (R304, R355, R360): Scheduled ones in class 2, with the DUE from which the group of their first nonet
lands in its cycle (log 129), and Open ones in class 3. -/
def State.sendRecord (s : State) (digest c : Nat) (e : MEnd) (d : Send) : State :=
  let typ := match d.kind with | .comb _ => 4 | _ => 3
  let endn := match d.kind with | .msg n .. => n | .pad n .. => n | .comb n => n | _ => 0
  (flitPieces d.data).foldl (fun s k =>
    if e.cls = 2 then
      s.sendSched typ e.pchip (Config.flowName digest c endn) (k.1 / 8)
        (d.start + 11 + e.dly + k.1 / 144 + 2 ^ 24 - Config.stationLead e.pcore % 2 ^ 24) k.2
    else s.sendOpen (some (c, d.eng, d.ctx, d.pc)) typ e.pchip (Config.openPlace typ e.pcore e.pend (k.1 / 8)) k.2) s

/-- A channel send leaves the chip; one of class 3 is refused at a port that is not Up or Open-only, which is its program's address error (R371). -/
def State.shipOne (c : Nat) (s : State) (d : Send) : State :=
  match (s.core c).sendPeer d with
  | none => s
  | some e =>
    if e.cls != 2 && !(s.reaches e.pchip) then s.effects c [.err .addressError d.eng d.ctx d.pc 0]
    else s.sendRecord (match (s.core c).prog with | some n => (match s.prog n with | some p => p.digest | none => 0) | none => 0) c e d

/-- Messages, pad records and contributions of core `c` that are on their way to other chips leave this chip. -/
def State.ship (s : State) (c : Nat) : State :=
  let k := s.core c
  let off := k.te.net.filter (s.goesOff k)
  if off.isEmpty then s
  else off.foldl (State.shipOne c) (s.setCore c ({ k with te := { k.te with net := k.te.net.filter fun d => !(s.goesOff k d) } } : Core).settleHalts)

/-- Take over the work of core `c`: the core, memory, and its effects on the rest of the part. -/
def State.take (s : State) (c : Nat) (x : Cx) : State :=
  let t := (({ s.setCore c x.c with mem := x.mem }.pace c).ship c).effectsAt c x.effs
  match x.c.prog with
  | some n => t.settleStop n
  | none => t

/-- The other cores of a core's program under its stack (R11, R253). -/
def State.matesOf (s : State) (c : Nat) : List Nat :=
  match (s.core c).prog with
  | some n => (match s.prog n with | some p => s.nearMates p c | none => [])
  | none => []

/-- The cores whose records core `c` is receiving while their source is read. -/
def State.sourcesOf (s : State) (c : Nat) : List Nat :=
  dedup ((s.core c).pend.filterMap fun p => match p.wr with | .await k .. => some k | _ => none)

/-- Group `k` of a record, once its source read has come to the end of it (R280, R304). -/
def Send.group (d : Send) (k : Nat) : Option (List PNt) :=
  let l := (d.data.drop (144 * k)).take 144
  if min 144 (d.total - 144 * k) ≤ l.length then some l else none

/-- What core `c` receives of records under way is given the data that has been read; a record all of which has been read is on its way no more (R304). -/
def State.supply (s : State) (c : Nat) : State :=
  let k := s.core c
  let find (src tid : Nat) : Option Send := (s.core src).te.landing.find? fun d => d.tid == tid
  let pend := k.pend.map fun p => match p.wr with
    | .await src tid g off => (match find src tid with
        | some d => (match d.group g with | some l => { p with wr := .scr off l } | none => p)
        | none => p)
    | _ => p
  let mine := k.pend.filterMap fun p => match p.wr with | .await src tid .. => some (src, tid) | _ => none
  (s.sourcesOf c).foldl (fun s src =>
    let x := s.core src
    s.setCore src { x with te := { x.te with
      landing := x.te.landing.filter fun d => !(d.data.length == d.total && mine.contains (src, d.tid)) } })
    (s.setCore c { k with pend := pend })

/-- Core `k` goes on past cycle `t` of its program, as far as it can by itself. -/
def State.catchUp (t : Nat) (s : State) (k : Nat) : State :=
  if s.coreRuns k && decide ((s.core k).now ≤ t) then s.take k ((Cx.of (s.core k) s.mem).runTo (s.env k) (t + 1)) else s

/-- Core `c` works, and where its time stops because other cores have to come on first, they do and it begins anew; it stops there for good where
they are held themselves (R12, R304). -/
def State.together (c : Nat) (f : Env → Cx → Cx) : Nat → State → State
  | 0, s => s
  | n + 1, s =>
    if s.coreRuns c then
      let x := f (s.env c) (Cx.of (s.core c) s.mem)
      if x.late then
        let l := s.matesOf c ++ s.sourcesOf c
        let t := (l.foldl (State.catchUp x.c.now) s).supply c
        if (t.core c).pend == (s.core c).pend && l.all fun k => (t.core k).now == (s.core k).now then s.take c x else together c f n t
      else s.take c x
    else s

/-- Let core `c` work (`f`), where its program issues; else the event does not come about and nothing changes (log 6). -/
def State.work (s : State) (c : Nat) (f : Env → Cx → Cx) : State := State.together c f (2 ^ 48) s

/-- A command that concerns one core. -/
def onCore (s : State) (c : Nat) (f : Env → Cx → Cx) : Result :=
  if c < 144 then .next (s.work c f) else .fault .noSuchCore

/-- An instruction of engine `eng` of core `c` with word `w`, at the head of its queue: it issues, or is held, or fails a check. -/
def issueOn (s : State) (c eng : Nat) (w : Word) (body : Env → Iss → Cx → OpRes) : Result :=
  onCore s c fun env x => x.issue env eng w (body env)

end Sys2Proof.Machine
end

