-- ==== Sys2Proof/Machine/Tick.lean ====
section
/-! DEFINITION. One core cycle of the whole part in which no command comes (log 7): the time counter, the chip cycle count, the
cycles of whole-machine stalls, and what falls due in the cores that run. -/

namespace Sys2Proof.Machine

/-- The cores of a program that issues come to the program's cycle count. -/
def State.runProg (s : State) (n : Nat) : State :=
  match s.prog n with
  | none => s
  | some p =>
    if p.issues then p.cores.foldl (fun s c => s.work c fun env x => x.runTo env (s.progCycle p)) s
    else s

/-- The core-group domains count cycles: they are clocked, also in Idle, and not frozen (R472, R482, R557). -/
def State.counts (s : State) : Bool := s.clocks && decide (s.pst ≤ 1) && s.pins.held == 0 && !s.frozen

/-- The cores of every program that issues come to its cycle count. -/
def State.runAll (s : State) : State :=
  ((s.progs.entries.map (·.1)).filter fun n => match s.prog n with | some p => p.issues | none => false).foldl State.runProg s

/-- A core of a program that issues has an instruction or a send in turn before its program's present cycle: time does not go on without it
(R42, R280). -/
def State.waits (s : State) : Bool :=
  s.progs.entries.any fun e => e.2.issues && e.2.cores.any fun c =>
    decide ((s.core c).now < s.progCycle e.2 + 1) && (s.core c).blocked (s.env c)

/-- One cycle of 0.5 ns (R6, R472), unless an instruction is in turn that no command has yet brought (log 7). The time counter runs whatever
the state of the rest (R432), but not without the 3.3 V input, from which the always-on domain works (R565). -/
def State.tick (s0 : State) : State :=
  let s := s0.freeHeld
  if s.pins.held &&& 8 != 0 then s
  else if s.live then (if s.waits then s else (s.addCycles 1).runAll)
  else if s.counts then s.addCycles 1
  else
    let h := b2n s.half + 1
    { s.passNs (h / 2) with half := h % 2 == 1 }

/-- The chip cycle in which core `c` stands. -/
def State.coreCycle (s : State) (c : Nat) : Nat := s.cycleOf c (s.core c).now

/-- Time passes to chip cycle `t`, where it has not yet. -/
def State.passTo (s : State) (t : Nat) : State := if s.cyc < t then s.addCycles (t - s.cyc) else s

/-- Work that outside traffic does in a core: it needs no issuing program, and goes on in a stall (R425). -/
def State.outside (s : State) (c : Nat) (f : Env → Cx → Cx) : State :=
  if s.live then s.take c (f (s.env c) (Cx.of (s.core c) s.mem)) else s

/-- Time passes to chip cycle `t`, and core `c` comes to it, where its program issues. -/
def State.bring (s : State) (c t : Nat) : State :=
  let s := s.passTo t
  s.work c fun env x => x.runTo env (t - s.cycleOf c 0)

end Sys2Proof.Machine
end

