-- ==== Sys2Proof/Machine/Checks.lean ====
section
/-! DEFINITION. Checked reads of near and far memory, rest windows, and the background slot of a core (R225, R229, R235, R241, R242, R246,
R252 to R262, R271). -/

namespace Sys2Proof.Machine

/-! ### Places -/

/-- The global address of a local one. -/
def State.globalAddr (s : State) (l : Nat) : Nat := s.chipId * 2 ^ 44 + l

/-- The stack of a near address. -/
def nearStack (a : Nat) : Nat := (a - nearBase) / stackSize

/-- A local address lies in near memory. -/
def isNear (a : Nat) : Bool := decide (nearBase ≤ a) && decide (a < nearBase + 6 * stackSize)

/-- A local address lies in usable far memory. -/
def isFar (a : Nat) : Bool := decide (farBase ≤ a) && decide (a < farEnd)

/-- Two ranges meet. -/
def meets (a n b m : Nat) : Bool := decide (a < b + m) && decide (b < a + n)

/-- A range meets a sealed segment (R92). -/
def State.sealed (s : State) (a n : Nat) : Bool := s.seals.any fun r => meets a n r.1 r.2

/-! ### Rest windows (R252 to R254) -/

/-- The running program that uses the near path of a stack (R253). -/
def State.nearOwner (s : State) (k : Nat) : Option (Nat × Prog) :=
  s.progs.entries.find? fun e => e.2.running && e.2.nearStacks.contains k

/-- The rest counter of a stack (R253, R254). -/
def State.restOf (s : State) (k : Nat) : Nat :=
  match s.nearOwner k with
  | some (_, p) => s.progCycle p
  | none => s.rest.getD k 0

/-- Cycles until the rest counter of a stack stands in a rest window. -/
def State.toRest (s : State) (k : Nat) : Nat :=
  let r := s.restOf k % 7680
  if 7360 ≤ r then 0 else 7360 - r

/-- No rest window of a stack comes: its counter stands, for a whole-machine stall holds its program outside a window (R253). -/
def State.restHeld (s : State) (k : Nat) : Bool :=
  match s.nearOwner k with
  | some (_, p) => !p.stalls.isEmpty && s.toRest k != 0
  | none => false

/-- Time passes to the next rest window of a stack, where one comes. -/
def State.passToRest (s : State) (k : Nat) : State := if s.restHeld k then s else s.addCycles (s.toRest k)

/-- A range in near memory whose access has to wait for a rest window that does not come. -/
def State.nearWaits (s : State) (a : Nat) : Bool := isNear a && s.restHeld (nearStack a)

/-! ### Failed checks (R255, R257, R260, R262) -/

/-- A re-read or mirror read holds a program for some cycles more; one that falls within the stall of another lengthens it (R255). -/
def Prog.reread (p : Prog) (n : Nat) : Prog :=
  if p.stalls.any fun c => match c with | .reread _ => true | _ => false then
    { p with stalls := p.stalls.map fun c => match c with | .reread k => .reread (k + max 1 n) | c => c }
  else { p with stalls := p.stalls ++ [.reread n] }

/-- The program that owns a near block is held (R255). -/
def State.holdNear (s : State) (k n : Nat) : State :=
  match s.nearOwner k with
  | some (m, _) => s.updProg m fun p => p.reread n
  | none => s

/-- A failed block is read again: counted, logged, and hidden in near memory once in each span of 64 cycles, else with a stall of at least 97
cycles (R255, R257). -/
def State.readAgain (s : State) (a stall : Nat) : State :=
  if isNear a then
    let k := nearStack a
    let span := s.restOf k / 64 + 1
    let hidden := s.spans.get 0 k != span
    let s := (s.bump 0x7020 1 1).logChip 0x0101 0xFF (s.globalAddr a)
    if hidden then { s with spans := s.spans.put k span } else s.holdNear k (max 97 stall)
  else (s.bump 0x7020 2 1).logChip 0x0102 0xFF (s.globalAddr a)

/-- The region of an address may serve it from its mirror (R260, R261). -/
def State.mirrored (s : State) (a : Nat) : Bool :=
  match s.mem.mirrorOf a with
  | some r => r.state == 1
  | none => false

/-- What a core has requested of a near block and what has not landed before its cycle `t` changes: a COPY's requests land 96 cycles after they are
made, and so do a weight stream's (R251). -/
def Core.flight (c : Core) (b t : Nat) (g : Nat → PNt → PNt) : Core :=
  let f (a : Nat) (due : Nat → Nat) (d : List PNt) : List PNt :=
    d.zipIdx.map fun e => if (a + e.2) / 64 = b && decide (t ≤ due e.2) then g (a + e.2) e.1 else e.1
  { c with
    pend := c.pend.map fun p => match p.wr with
      | .land a off d => { p with wr := .land a off (f a (fun _ => p.due) d) }
      | _ => p
    mve := { c.mve with streams := c.mve.streams.map fun m => { m with data := f m.addr (fun k => reqCycle m.start (k / 96) + 96) m.data } } }

/-- What is on its way from the near block of an address to a core changes (R255). -/
def State.flight (s : State) (a : Nat) (g : Nat → PNt → PNt) : State :=
  if isNear a then
    { s with cores := ⟨s.cores.entries.map fun e => (e.1, if e.2.prog.isSome then e.2.flight (a / 64) (s.cyc - s.cycleOf e.1 0) g else e.2)⟩ }
  else s

/-- A block is poisoned, in both copies of a mirrored region, counted and logged (R255, R257, R260, R469); what is on its way from it lands
poisoned (R159, R255). -/
def State.poisonBlock (s : State) (a : Nat) : State :=
  (({ s with mem := s.mem.poison a }.flight a fun _ e => { e with p := true }).bump 0x7020 (if isNear a then 4 else 5) 1).logChip 0x0201 0xFF (s.globalAddr a)

/-- A block that failed again is read from the mirror of its Active region (R260): it is delivered and the primary rewritten from it, or it is
poisoned in both copies. The owner of a near block waits for it (R255). -/
def State.fromMirror (s : State) (a : Nat) (ok : Bool) (stall : Nat) : State :=
  let s := (s.bump 0x7020 3 1).logChip 0x0103 0xFF (s.globalAddr a)
  let s := if isNear a then s.holdNear (nearStack a) stall else s
  match s.mem.mirrorOf a with
  | some r =>
    if ok then
      let m := s.mem.copyBlock (r.mirror + (a / 64 * 64 - r.primary)) a
      { s with mem := m }.flight a fun b _ => m.readNt b
    else s.poisonBlock a
  | none => s

/-- A block that a read delivers failed its check (R255, R257). -/
def State.badBlock (s : State) (a : Nat) (b : BadBlock) : State :=
  let s := s.readAgain a 0
  if !b.again then s else if s.mirrored a then s.fromMirror a (!b.mirror) 97 else s.poisonBlock a

/-- Whether a block that failed is delivered poisoned. -/
def State.deliversBad (s : State) (a : Nat) (b : BadBlock) : Bool := b.again && (!(s.mirrored a) || b.mirror)

/-- The failed blocks of a read of `n` nonets at `a`, by address. -/
def faultBlocks (f : ReadFault) (a n : Nat) : List (Nat × BadBlock) :=
  match f with
  | .failed l => (l.filter fun b => decide (a / 64 * 64 + 64 * b.block < a + n)).map fun b => (a / 64 * 64 + 64 * b.block, b)
  | _ => []

/-- A read of `n` nonets of near or far memory is checked block by block (R255, R257): the part afterwards, and whether a block lands
poisoned for a failed check. -/
def State.checkedRead (s : State) (a n : Nat) (f : ReadFault) : State × Bool :=
  (faultBlocks f a n).foldl (fun r e => (r.1.badBlock e.1 e.2, r.2 || r.1.deliversBad e.1 e.2)) (s, false)

/-- The physical faults that a read of `n` nonets at `a` meets. -/
def State.latentFault (s : State) (a n : Nat) : ReadFault :=
  let l := (s.latent.entries.filter fun e => meets (64 * e.1) 64 a n).map fun e => (⟨e.1 - a / 64, decide (2 ≤ e.2), decide (3 ≤ e.2)⟩ : BadBlock)
  if l.isEmpty then .none else .failed l

/-- Those faults have been met. -/
def State.clearLatent (s : State) (a n : Nat) : State := { s with latent := s.latent.keep fun b => !(meets (64 * b) 64 a n) }

/-- A read of `n` nonets that no command's operand says anything of is checked block by block (R257): the part afterwards, and whether a block lands poisoned. -/
def State.latentRead (s : State) (a n : Nat) : State × Bool :=
  let f := s.latentFault a n
  let r := s.checkedRead a n f
  if f = .none then (s, false) else (r.1.clearLatent a n, r.2)

/-- A write of part of a far group reads the group's check word and block (R257). -/
def State.partWrite (s : State) (a n : Nat) (f : ReadFault) : State :=
  if a % 1024 != 0 || n % 1024 != 0 then (s.checkedRead a n f).1 else s

/-! ### The background slot (R225, R229, R235, R241, R242) -/

/-- The first chip cycle in which a core's background slot is free: write-backs that wait have theirs before (R229, R236). -/
def State.bgNext (s : State) (k : Nat) : Nat :=
  let c := s.core k
  max s.cyc (max c.bgFree (if c.fixes.isEmpty then 0 else s.cycleOf k c.bgAt))

/-- A background access waits for the core's slot. -/
def State.bgWait (s : State) (k : Nat) : State := s.bring k (s.bgNext k)

/-- The core's background slot takes an access of up to 144 nonets: it waits for the slot, which is free again four cycles later. DESIGN CHOICE
(log 124): the accesses go in the order in which their commands come. -/
def State.bgSlot (s : State) (k : Nat) : State :=
  let t := s.bgNext k
  let u := s.bgWait k
  u.setCore k { u.core k with bgFree := t + 4, bgAt := t + 4 - u.cycleOf k 0 }

/-- A piece of a background write, of up to 144 nonets, with its number (R229). -/
def State.bgPiece (k off : Nat) (s : State) (e : List PNt × Nat) : State :=
  let t := s.bgSlot k
  let r := (t.core k).bgWrite (off + 144 * e.2) e.1
  (t.setCore k r.1).effects k r.2

/-- The pieces of a background write, one in each slot (R225, R229). -/
def State.bgPieces (s : State) (k off : Nat) (data : List PNt) : State := (chunks 144 data).zipIdx.foldl (State.bgPiece k off) s

/-- A piece of a background read of `n` nonets. -/
def State.bgFetch (k off n : Nat) (r : State × List PNt) (j : Nat) : State × List PNt :=
  let t := r.1.bgSlot k
  let (c, d, effs) := (t.core k).bgRead (off + 144 * j) (min 144 (n - 144 * j))
  ((t.setCore k c).effects k effs, r.2 ++ d)

/-- The banks of the words take background accesses: a Draining one only those that were in flight when it began to drain, by chip cycle
`since` (R241, R242). -/
def Scratch.bgTakes (t : Scratch) (since : Option Nat) (ws : List Nat) : Bool :=
  t.wordsOn ws && (banksOfWords ws).all fun b => !(nbit t.banksDraining b) ||
    (match since with | some n => decide (n ≤ t.drainFrom.get 0 b) | none => false)

/-- A step of the core's program runs: its handles protect their words (R235). -/
def State.stepRuns (s : State) (k : Nat) : Bool :=
  match (s.core k).prog with
  | some n => (match s.prog n with | some p => p.running | none => false)
  | none => false

/-- A background write to the scratchpad of a core of this chip (R229, R235, R241), which left its source in chip cycle `since` (`none`: now):
the part, or the error of a refused landing. -/
def State.bgWrite (s : State) (k off : Nat) (since : Option Nat) (data : List PNt) : State × Option PErr :=
  let t := s.bgWait k
  let c := t.core k
  if scratchSize < off + data.length || !(c.scr.bgTakes since (wordsOf off data.length)) then (s, some .addressError)
  else if t.stepRuns k && c.rangeProtected (t.env k).step off data.length then (s, some .protectedWrite)
  else (s.bgPieces k off data, none)

/-- A background read (R229, R236, R241); `none`: it is refused. -/
def State.bgRead (s : State) (k off n : Nat) (since : Option Nat) : Option (State × List PNt) :=
  let c := (s.bgWait k).core k
  if decide (off + n ≤ scratchSize) && c.scr.bgTakes since (wordsOf off n) then
    some ((List.range (cdiv n 144)).foldl (State.bgFetch k off n) (s, []))
  else none

/-! ### Sources and destinations of other cores and chips -/

/-- The nonets of a request as its source gives them, and whether a check or the source failed it. -/
structure Served where
  s : State
  data : List PNt
  err : Bool
  deriving DecidableEq, Repr

/-- A source refuses the read: the data that lands is poisoned (R271). -/
def refusedData (src n : Nat) : List PNt := (List.range n).map fun k => ⟨Config.refusedNonet (src + k), true⟩

/-- A read of `n` nonets at a local address of this chip is served as one access (R271): a far block, or the scratchpad of a core through its
background slot, where it was asked in chip cycle `since`. The mirror copy of a region has no address (R259). -/
def State.serveHere (s : State) (l n : Nat) (since : Option Nat) (fault : ReadFault) : Served :=
  if fault = .refused then ⟨s, refusedData l n, true⟩
  else if isFar l && decide (l + n ≤ farEnd) && !(s.mem.touchesMirror l n) then
    let r := s.checkedRead l n fault
    ⟨r.1, r.1.mem.read l n, r.2⟩
  else
    match region s.fuse.absent l with
    | .scratch k off =>
      match s.bgRead k off n since with
      | some (t, d) => ⟨t, d, false⟩
      | none => ⟨s, refusedData l n, true⟩
    | _ => ⟨s, refusedData l n, true⟩

/-- A read of `n` nonets at a global address is served at its source (R271): here, or by another chip, whose answer is `ext`. -/
def State.serve (s : State) (src n : Nat) (since : Option Nat) (fault : ReadFault) (ext : List PNt) : Served :=
  if s.isHere (chipOf src) then s.serveHere (localOf src) n since fault
  else if fault = .refused || ext.length ≠ n || !(s.reachesStill (chipOf src)) then ⟨s, refusedData src n, true⟩
  else ⟨s, ext, (faultBlocks fault (localOf src) n).any fun b => b.2.again⟩

/-- A grant word lands at register `idx` of a core (R246): the part, or the credit error of the granting program. -/
def State.grant (s : State) (k idx : Nat) (w : Word) : State × Option PErr :=
  let c := s.core k
  let r := c.te.credits.get .reset idx
  if bits w 71 26 ≠ 0 || !r.valid then (s, some .credit)
  else
    let c := { c with te := { c.te with
      credits := c.te.credits.write .reset idx { r with credit := satAdd (2 ^ 26 - 1) r.credit (bits w 25 0) } } }
    (s.setCore k (if r.sigen then c.bump r.counter else c), none)

/-- A STORE's data, which left its source in chip cycle `since`, lands at its destination on this chip (R92, R102, R246, R259, R282). -/
def State.landStore (s : State) (dst : Nat) (since : Option Nat) (fault : ReadFault) (data : List PNt) : State × Option PErr :=
  let l := localOf dst
  match region s.fuse.absent l with
  | .far =>
    if farEnd < l + data.length || s.sealed l data.length || s.mem.touchesMirror l data.length then (s, some .addressError)
    else
      let s := s.partWrite l data.length fault
      ({ s with mem := s.mem.write l data }, none)
  | .ctl k o =>
    if 0x3580 ≤ o && o < 0x3600 && o % 8 = 0 && data.length = 8 then s.grant k ((o - 0x3580) / 8) (BitVec.ofNat 72 (ntVal data))
    else (s, some .addressError)
  | .scratch k off => s.bgWrite k off since data
  | _ => (s, some .addressError)

end Sys2Proof.Machine
end

