-- ==== Sys2Proof/Machine/Events.lean ====
section
/-! DEFINITION. What happens in a core at the head of a queue, in a completion cycle, and when what it sends or asks for leaves or
lands: the events of chapters 3, 5, 6, 9, 10 and 11 that no instruction is (R53 to R63, R124, R151, R153, R229, R246, R271 to R289,
R303 to R319). -/

namespace Sys2Proof.Machine

/-! ### The head of a queue (R52, R63, R578) -/

/-- INSTRUCTION_AT_HEAD: the checks of the first cycle at the head, and the hold. -/
def Cx.headArrives (x : Cx) (env : Env) (eng : Nat) : Cx :=
  match (x.c.eng eng).here.head with
  | none => x
  | some w => match x.atHead env eng w with | .stop x => x | .ready x _ => x

/-- INSTRUCTION_AT_HEAD (R578). -/
def execInstructionAtHead (core eng : Nat) (s : State) : Result :=
  if eng < 6 then onCore s core fun env x => x.headArrives env eng else .fault .noSuchCore

/-- COMPLETION_CYCLE: every cycle up to the next completion of an issued instruction passes (R55). -/
def Cx.nextCompletion (x : Cx) (env : Env) : Cx :=
  match x.c.infl.foldl (fun m i => minDue m i.due) none with
  | none => x
  | some d => x.runTo env (d + 1)

/-- COMPLETION_CYCLE (R55). -/
def execCompletionCycle (core : Nat) (s : State) : Result := onCore s core fun env x => x.nextCompletion env

/-! ### The wait graph (R319) -/

/-- The number by which the wait-graph unit knows an ME. -/
def State.meNode (s : State) (chip core : Nat) : Nat := (if s.isHere chip then s.chipId else chip) * 256 + core

/-- The beacons the unit holds of MEs that are still blocked: those of this chip's cores are checked, those of others stand. -/
def State.liveBeacons (s : State) : List Beacon :=
  s.beacons.filter fun b => b.node / 256 != s.chipId || (s.core (b.node % 256)).me.bkind != 0

/-- One round of the search: the members all of whose peers are members. -/
def closedOnce (l : List Beacon) : List Beacon := l.filter fun b => b.waits.all fun n => l.any fun m => m.node == n

/-- The largest deadlocked set (R319). -/
def deadSet (l : List Beacon) : Nat → List Beacon
  | 0 => l
  | k + 1 => deadSet (closedOnce l) k

/-- The deadlocked set of the part as its beacons show it. -/
def State.deadlocked (s : State) : List Beacon := deadSet s.liveBeacons s.liveBeacons.length

/-- The MEs that some wait on, themselves included, after `k` rounds. -/
def reachOf (l : List Beacon) : Nat → List Nat → List Nat
  | 0, ns => ns
  | k + 1, ns => reachOf l k (dedup (ns ++ (l.filter fun b => ns.contains b.node).flatMap (·.waits)))

/-- The smallest deadlocked set that holds the ME of core `c`, where it is in one: what it waits on, what that waits on, and so on (R319). -/
def State.deadSetOf (s : State) (c : Nat) : List Beacon :=
  let l := s.deadlocked
  let ns := reachOf l l.length [s.meNode 0xFFFF c]
  l.filter fun b => ns.contains b.node

/-- The contexts of an engine that are held, each with the cycle from which it has been, the earliest hold first. -/
def Engine.holds (g : Engine) : List (Nat × Nat) :=
  let put (e : Nat × Nat) (l : List (Nat × Nat)) : List (Nat × Nat) :=
    (l.filter fun f => decide (f.2 ≤ e.2)) ++ [e] ++ l.filter fun f => decide (e.2 < f.2)
  g.ctxs.entries.foldl (fun l k => match k.2.held with | some t => put (k.1, t) l | none => l) []

/-- The hold of context `k` from cycle `h` on has lasted more than the wait timeout, where nothing ends it before (R63). -/
def Cx.timeoutOf (x : Cx) (env : Env) (eng : Nat) (k h : Nat) : Cx :=
  let y := x.runTo env (h + env.waitTimeout)
  if y.reached (h + env.waitTimeout) && y.c.stillHeld eng k then y.emit [.trig .flagTimeout eng k ((y.c.eng eng).ctx k).pc 0] else { x with late := y.late }

/-- FLAG_TIMEOUT: the first hold of a context that lasts more than wait_timeout cycles (R63). -/
def Cx.flagTimeout (x : Cx) (env : Env) (eng : Nat) : Cx :=
  (x.c.eng eng).holds.foldl (fun y e => if y.effs.length = x.effs.length then y.timeoutOf env eng e.1 e.2 else y) x

/-- FLAG_TIMEOUT (R63): not for an ME that belongs to a deadlocked set (R319). -/
def execFlagTimeout (core eng : Nat) (s : State) : Result :=
  if eng < 6 then
    if eng = 5 && (s.core core).me.bkind != 0 && s.deadlocked.any (fun b => b.node == s.meNode 0xFFFF core) then .next s
    else onCore s core fun env x => x.flagTimeout env eng
  else .fault .noSuchCore

/-- The scheduled holds that go on in a core: engine and context. -/
def Core.slipHolds (c : Core) : List (Nat × Nat) :=
  c.engs.entries.filterMap fun e => if e.2.here.held.isSome && e.2.here.scheduled then some (e.1, e.2.cur) else none

/-- The cycles pass in which the scheduled holds of a core go on counting, until they exceed the slip limit, end or wait for another engine's
command. -/
def Cx.slipRun (env : Env) : Nat → Cx → Cx
  | 0, x => x
  | f + 1, x =>
    let need := env.slipLimit + 1 - x.c.slipCycles
    let n := x.c.slipHolds.length
    if need = 0 || n = 0 then x
    else
      let t := x.c.now + cdiv need n
      let y := x.runTo env t
      if y.reached t then slipRun env f y else y

/-- SLIP_LIMIT_EXCEEDED: in Locked mode the step slip cycles exceed the slip limit (R62); holds that have not ended go on counting, to the
cycle in which the limit is passed. The error names the open scheduled hold of the lowest engine, or engine 0 where none is open. DESIGN CHOICE
(log 147): the spec does not say which engine, context and program counter its record names. -/
def Cx.slipLimit (x : Cx) (env : Env) : Cx :=
  if env.free || env.slipLimit = 0 then x
  else
    let y := Cx.slipRun env (env.slipLimit + 8) x
    if y.failed then y
    else if env.slipLimit < y.c.slipCycles then
      let h := y.c.slipHolds.headD (0, 0)
      y.emit [.err .scheduleSlip h.1 h.2 ((y.c.eng h.1).ctx h.2).pc 0]
    else { x with late := y.late }

/-- SLIP_LIMIT_EXCEEDED (R62). -/
def execSlipLimitExceeded (core : Nat) (s : State) : Result := onCore s core fun env x => x.slipLimit env

/-! ### Datapath events (R124, R151, R153) -/

/-- DRAIN_ROW: the cycle of the next row of a draining set passes (R124). -/
def Cx.nextRow (x : Cx) (env : Env) : Cx :=
  match x.c.ope.drainDue with
  | none => x
  | some d => x.runTo env (d + 1)

/-- DRAIN_ROW (R124). -/
def execDrainRow (core : Nat) (s : State) : Result := onCore s core fun env x => x.nextRow env

/-- The first cycle in which a stream adds a group. -/
def Mve.nextGroup (m : Mve) : Option Nat := m.streams.foldl (fun d s => minDue d s.addDue) none

/-- MSTREAM_GROUP_ADD: the cycle of the next group's adds passes (R151). -/
def Cx.nextGroup (x : Cx) (env : Env) : Cx :=
  match x.c.mve.nextGroup with
  | none => x
  | some d => x.runTo env (d + 1)

/-- MSTREAM_GROUP_ADD (R151). -/
def execMstreamGroupAdd (core : Nat) (s : State) : Result := onCore s core fun env x => x.nextGroup env

/-- EMISSION: the cycle of the next emission passes (R153). -/
def Cx.nextEmission (x : Cx) (env : Env) : Cx :=
  match x.c.mve.streams.foldl (fun d s => if s.emit then minDue d (some s.emitCycle) else d) none with
  | none => x
  | some d => x.runTo env (d + 1)

/-- EMISSION (R153). -/
def execEmission (core : Nat) (s : State) : Result := onCore s core fun env x => x.nextEmission env

/-! ### Sends (R278 to R282) -/

/-- SEND_START (R280). -/
def execSendStart (core : Nat) (s : State) : Result := onCore s core fun env x => x.sendStart env

/-- The first waiting send reaches its start. -/
def Cx.toStart (x : Cx) (env : Env) : Cx :=
  match x.c.sendDue env with
  | none => x
  | some d => x.runTo env d

/-- OUTBOUND_STALL (R281). -/
def execOutboundStall (core : Nat) (s : State) : Result :=
  if core < 144 then
    let t := s.work core fun env x => x.toStart env
    match (t.core core).prog with
    | some n =>
      if s.coreRuns core && (t.core core).outboundBlocked (t.env core) then .next (t.updProg n fun p => p.stall (.outbound core)) else .next s
    | none => .next s
  else .fault .noSuchCore

/-- The outbound stall of a core ends, in the cycle after the room appears. -/
def State.roomFound (s : State) (core : Nat) : State :=
  match (s.core core).prog with
  | some n =>
    match s.prog n with
    | some p =>
      if p.stalls.contains (.outbound core) && !((s.core core).outboundBlocked (s.env core)) then
        (s.addCycles 1).updProg n fun p => p.unstall (.outbound core)
      else s
    | none => s
  | none => s

/-- A send of class 2 to another chip stays in the outbound buffer while its port lacks Scheduled credit (R361). -/
def State.heldBack (s : State) (c : Core) (d : Send) : Bool :=
  match c.sendPeer d with
  | some e => e.cls == 2 && !(s.isHere e.pchip) && s.backedUp e.pchip
  | none => false

/-- OUTBOUND_ROOM (R281): up to `nt` nonets of the ME's traffic, which no regulator holds, leave the buffer; an outbound stall ends
where there is room. -/
def execOutboundRoom (core nt : Nat) (s : State) : Result :=
  if core < 144 then
    let s := s.outside core fun _ x =>
      { x with c := { x.c with te := x.c.te.leaveFree nt (x.c.te.outb.filter fun d => !(s.heldBack x.c d)) } }
    .next (if s.live then s.roomFound core else s)
  else .fault .noSuchCore

/-- What leaves this chip as the next request of a class: a piece of a STORE, or a read request (R271, R276, R282, R355). At a port that is not Up or
Open-only it is refused at once (R371): the STORE meets its address error, and the data of the request is to land poisoned. -/
def State.sendRequest (s : State) (core cls : Nat) : State :=
  let te := (s.core core).te
  match te.nextReq cls with
  | none => s
  | some (tid, n) =>
    match te.outb.find? fun d => d.tid == tid with
    | some d =>
      match d.kind with
      | .store dst =>
        if s.isHere (chipOf dst) then s
        else if !(s.reaches (chipOf dst)) then s.effects core [.err .addressError d.eng d.ctx d.pc 0]
        else s.sendOpen none 0 (chipOf dst) (localOf dst + d.gone) ((d.data.drop d.gone).take n)
      | _ => s
    | none =>
      match te.dq.entries.find? fun q => q.2.tid == tid && q.2.st == 1 with
      | some q =>
        if s.isHere (chipOf q.2.src) then s
        else if !(s.reaches (chipOf q.2.src)) then
          let k := s.core core
          s.setCore core { k with te := { k.te with dq := k.te.dq.put q.1 { q.2 with refused := q.2.refused ++ [q.2.sent] } } }
        else s.launch (flitOf 1 false (chipOf q.2.src) (core * 2 ^ 18 + q.1 * 2 ^ 14 + 64 * q.2.sent % 1024)
          (((Config.readPayload (q.2.src + 64 * q.2.sent) n s.chipId).take 8).flatMap fun w => wordNts w false))
      | none => s

/-- The cycles until a class holds the tokens of its next request (R278); `none`: it never does. -/
def Te.tokenWait (te : Te) (k : Nat) : Option Nat :=
  match te.nextReq k with
  | none => none
  | some (_, n) =>
    let r := te.reg k
    if n = 0 then none
    else if 64 * n ≤ r.tokens64 then some 0
    else if r.rate = 0 || 64 * r.depth < 64 * n then none
    else some (cdiv (64 * n - r.tokens64) r.rate)

/-- REGULATOR_RELEASE (R278): in the first cycle in which TOKENS is at least its size, the request leaves. -/
def execRegulatorRelease (core cls : Nat) (s : State) : Result :=
  if 144 ≤ core then .fault .noSuchCore
  else if 4 ≤ cls then .fault .noSuchUnit
  else
    let s1 := match (s.core core).te.tokenWait cls with
      | some w => if w = 0 then s else s.work core fun env x => x.runTo env (x.c.now + w)
      | none => s
    match (s1.core core).te.tokenWait cls with
    | some 0 =>
      if s1.live then
        .next (((s1.sendRequest core cls).outside core fun _ x => { x with c := x.c.regulatorRelease cls }).roomFound core)
      else .next s
    | _ => .next s

/-! ### Landings (R271, R282, R283, R286) -/

/-- The data of request `req` lands in decoupling queue `q` (R271): after the last the queue is Ready and its LOADQ completes. -/
def Cx.queueLand (x : Cx) (q req : Nat) (data : List PNt) (err : Bool) : Cx :=
  let d := x.c.te.dq.get .reset q
  let landed := d.landed ++ [req]
  let full := decide (cdiv d.size 64 ≤ landed.length)
  let d := { d with
    data := d.data.writeList ⟨0, false⟩ (64 * req) data
    landed := landed
    poison := d.poison || anyPoison data
    err := d.err || err
    st := if full then 2 else 1 }
  let c := { x.c with te := { x.c.te with dq := x.c.te.dq.put q d } }
  let (ctx, pc) := match x.c.infl.find? fun e => e.tid == d.tid with | some e => (e.ctx, e.pc) | none => (0, 0)
  ({ x with c := if full then c.completeOut d.tid c.now else c } : Cx).emit (if err then [.event 0x0205 1 ctx pc q] else [])

/-- QUEUE_DATA_LAND (R271). -/
def execQueueDataLand (core queue req : Nat) (fault : ReadFault) (ext : List PNt) (s : State) : Result :=
  if 144 ≤ core then .fault .noSuchCore
  else if 16 ≤ queue then .fault .noSuchUnit
  else
    let d := (s.core core).te.dq.get .reset queue
    if s.live && d.st == 1 && decide (req < d.sent) && !(d.landed.contains req) then
      let v := s.serve (d.src + 64 * req) (min 64 (d.size - 64 * req)) (some (s.cycleOf core d.asked)) (if d.refused.contains req then .refused else fault) ext
      .next (v.s.outside core fun _ x => x.queueLand queue req v.data v.err)
    else .next s

/-- CREDIT_GRANT (R246, R247): a grant word comes from another chip; one that was sent in an attempt that has failed is discarded. -/
def execCreditGrant (core idx : Nat) (g : GrantWord) (s : State) : Result :=
  if 144 ≤ core then .fault .noSuchCore
  else if 16 ≤ idx then .fault .noSuchUnit
  else .next (if s.live && !g.stale then (s.grant core idx g.word).1 else s)

/-- A send of core `c` is on its way no more; its instruction completes where `done` says so. -/
def State.sent (s : State) (c tid : Nat) (done : Bool) : State :=
  let k := s.core c
  let k := { k with te := { k.te with net := k.te.net.filter fun d => d.tid != tid } }
  s.setCore c (if done then k.completeOut tid k.now else k)

/-- STORE_LANDED (R282): `refused` is the answer of another chip. -/
def execStoreLanded (core tid : Nat) (fault : ReadFault) (refused : Option PErr) (s : State) : Result :=
  if 144 ≤ core then .fault .noSuchCore
  else
    match (s.core core).te.net.find? fun d => d.tid == tid with
    | none => .next s
    | some d =>
      match d.kind with
      | .store dst =>
        if !s.live then .next s
        else
          let (t, e) := if s.isHere (chipOf dst) then s.landStore dst (some (s.cycleOf core d.start)) fault d.data
            else (s, if s.reachesStill (chipOf dst) then refused else some .addressError)
          match e with
          | none => .next (t.sent core tid true)
          | some e => .next ((t.sent core tid false).effects core [.err e d.eng d.ctx d.pc 0])
      | _ => .next s

/-- MCAST_COPY_LAND (R283): a copy lands through its destination's background slot, and that core's named counter increments. -/
def execMcastCopyLand (core tid dest : Nat) (s : State) : Result :=
  if 144 ≤ core || 144 ≤ dest then .fault .noSuchCore
  else
    match (s.core core).te.net.find? fun d => d.tid == tid with
    | none => .next s
    | some d =>
      match d.kind with
      | .mcast mset off =>
        if !s.live || !(d.dests.contains dest) then .next s
        else
          let (t, e) := s.bgWrite dest off (some (s.cycleOf core d.start)) d.data
          match e with
          | some e => .next (t.effects core [.err e d.eng d.ctx d.pc 0])
          | none =>
            let ctr := (((s.core core).te.msets.get [] mset).find? fun m => m.1 == dest).map (·.2)
            let t := match ctr with | some n => t.setCore dest ((t.core dest).bump n) | none => t
            let k := t.core core
            let net := k.te.net.filterMap fun x =>
              if x.tid = tid then
                let l := x.dests.filter (· != dest)
                if l.isEmpty then none else some { x with dests := l }
              else some x
            .next (t.setCore core { k with te := { k.te with net := net } })
      | _ => .next s

/-! ### The light path (R284 to R286) -/

/-- The light-path frame position in which core `c` stands. -/
def State.coreFrame (s : State) (c : Nat) : Nat :=
  let t := s.coreCycle c
  if t ≤ s.cyc then (s.frame + 144 - (s.cyc - t) % 144) % 144 else (s.frame + (t - s.cyc)) % 144

/-- The payload at the head of the light queue, its source read, leaves the outbound buffer for the slot of cycle `t`, and its LIGHT
completes (R280, R285). -/
def Cx.lightSend (x : Cx) (env : Env) (t : Nat) : Cx :=
  let x := x.runTo env t
  match x.c.te.lightq with
  | [] => x
  | d :: rest =>
    if !(x.reached t) || d.data.length != d.size then x
    else
      let te := { x.c.te with lightq := rest, fill := x.c.te.fill - d.size }
      let dst := match d.kind with | .light k => k | _ => 0
      ({ x with c := ({ x.c with te := te } : Core).complete d.tid t } : Cx).emit [.light dst t d.data]

/-- The head of the light queue of a core whose program a whole-machine stall holds enters the core's next slot (R284, R285, R425): its LIGHT completes in the
first cycle after the stall, and an outbound stall ends with the room it leaves (R281). -/
def State.lightInStall (s : State) (core : Nat) (d : Send) (rest : List Send) : State :=
  let t := s.cyc + (core + 144 - s.frame % 144) % 144
  let u := s.passTo t
  let k := u.core core
  let te := { k.te with lightq := rest, fill := k.te.fill - d.size }
  let dst := match d.kind with | .light n => n | _ => 0
  (({ u with light := u.light ++ [⟨core, dst, t, d.data⟩] } : State).setCore core (({ k with te := te } : Core).completeOut d.tid k.now)).roomFound core

/-- A whole-machine stall holds the program of a core. -/
def State.stallHolds (s : State) (core : Nat) : Bool :=
  match (s.core core).prog with
  | some n => (match s.prog n with | some p => p.running && !p.remounting && !p.stalls.isEmpty | none => false)
  | none => false

/-- LIGHT_SLOT_SEND (R285): the core's next slot after the source read. -/
def execLightSlotSend (core : Nat) (s : State) : Result :=
  if 144 ≤ core then .fault .noSuchCore
  else
    match (s.core core).te.lightq with
    | [] => .next s
    | d :: rest =>
      if s.live && s.stallHolds core then .next (if d.data.length = d.size then s.lightInStall core d rest else s)
      else
      let now := (s.core core).now
      let from_ := max now (d.start + 1)
      let f := (s.coreFrame core + (from_ - now)) % 144
      onCore s core fun env x => x.lightSend env (from_ + (core + 144 - f) % 144)

/-- A payload from core `src` lands in its mailbox, and the counter of the light receive word is incremented, or it is dropped (R286). -/
def State.landLight (s : State) (core src : Nat) (at_ : Nat) (data : List PNt) : State :=
  let k := s.core core
  let drop := s.setCore core { k with te := { k.te with lightRefused := true } }
  if !k.te.lightValid then drop
  else
    match s.bgWrite core (k.te.lightBase + 64 * src) (some at_) data with
    | (_, some _) => drop
    | (s, none) =>
      let k := s.core core
      s.setCore core (({ k with te := { k.te with lightLanded := (k.te.lightLanded + 1) % 2 ^ 36 } } : Core).bump k.te.lightCounter)

/-- LIGHT_LANDING (R285, R286): the payload lands 4 + d cycles after its slot, whether its sender goes on or not. -/
def execLightLanding (core src : Nat) (s : State) : Result :=
  if 144 ≤ core || 144 ≤ src then .fault .noSuchCore
  else
    match s.light.find? fun f => f.src == src && f.dst == core with
    | none => .next s
    | some f =>
      if !s.live then .next s
      else
        let t := s.bring core (f.at_ + 4 + (core + 144 - src) % 144)
        .next ({ t with light := t.light.erase f }.landLight core src f.at_ f.data)

/-! ### Background accesses (R229) -/

/-- BACKGROUND_ACCESS (R229): one access of up to 144 nt in the core's background slot; a bank that is off, waking or draining refuses it
(R241, R242), and in a step a protected word refuses a write (R235). -/
def execBackgroundAccess (core : Nat) (write : Bool) (off len : Nat) (data : List PNt) (s : State) : Result :=
  if 144 ≤ core then .fault .noSuchCore
  else if !s.live || 144 < len || len = 0 || scratchSize < off + len then .next s
  else if write then .next (if data.length = len then (s.bgWrite core off none data).1 else s)
  else .next (match s.bgRead core off len none with | some r => r.1 | none => s)

/-! ### Channels (R303 to R305, R314) -/

/-- The message or pad record of a channel that leaves its send end first, with the core that sends it. -/
def State.inChannel (s : State) (e : MEnd) : Option Send :=
  (s.core e.pcore).te.net.find? fun d => match d.kind with
    | .msg n .. => n == e.pend
    | .pad n .. => n == e.pend
    | _ => false

/-- A send of core `c` that is on its way is taken off it. -/
def State.taken (s : State) (c tid : Nat) : State :=
  let k := s.core c
  s.setCore c ({ k with te := { k.te with net := k.te.net.filter fun x => x.tid != tid } } : Core).settleHalts

/-- The sending core comes to the end of a send's source read, where it has not (R280). -/
def State.readOut (s : State) (c : Nat) (d : Send) : State :=
  s.work c fun env x => x.runTo env (d.start + cdiv d.size 144)

/-- A record of core `c` begins to land. -/
def State.beginLanding (s : State) (c : Nat) (d : Send) : State :=
  let t := s.taken c d.tid
  let k := t.core c
  t.setCore c { k with te := { k.te with landing := k.te.landing ++ [d] } }

/-- A record of class 3 comes through the background slot, 144 nonets at a time, up to the piece with which it is receivable (R229, R304). -/
def State.landSlots (s : State) (core endn pos : Nat) (data : List PNt) : State :=
  let k := s.core core
  let r := recOf pos (BitVec.ofNat 72 (ntVal (data.take 8))) (anyPoison (data.take 8))
  let off := (k.handle (k.me.endOf endn).handle).base + 8 * pos
  let d := if r.pad then data.take 8 else data
  let m := cdiv d.length 144 - 1
  if (k.writeRefused (s.env core).step off d.length).isSome then s.bgSlot core
  else (s.bgPieces core off (d.take (144 * m))).bgSlot core

/-- A record of class 3 lands, once all of it has been read (R304). -/
def State.landOpen (s : State) (core endn : Nat) (e : MEnd) (d : Send) : State :=
  let s := s.readOut e.pcore d
  match s.inChannel e with
  | none => s
  | some d =>
    if d.data.length != d.total then s
    else ((s.landSlots core endn d.kind.pos d.data).taken e.pcore d.tid).outside core fun env x => x.landRecord env endn d.kind.pos d.data

/-- A record of class 0 or 1 lands from cycle S + 11 + DLY on, while the rest of it may still be read (R304). -/
def State.landMessage (s : State) (core endn : Nat) (e : MEnd) (d : Send) : State :=
  let due := d.start + 11 + e.dly
  let s := (s.work e.pcore fun env x => x.runTo env due).work core fun env x => x.runTo env due
  match s.inChannel e with
  | none => s
  | some d =>
    if !(s.coreRuns core) then s
    else ((s.beginLanding e.pcore d).outside core fun env x => x.landStatic env e.pcore endn due d).supply core

/-- MESSAGE_LAND (R302 to R304): of another chip, a class 3 message; those of class 2 come with their flits (R360). -/
def execMessageLand (core endn : Nat) (ext : List PNt) (s : State) : Result :=
  if 144 ≤ core then .fault .noSuchCore
  else if 32 ≤ endn then .fault .noSuchUnit
  else
    let e := (s.core core).me.endOf endn
    if e.role ≠ 2 || !s.live then .next s
    else if s.isHere e.pchip then
      match s.inChannel e with
      | none => .next s
      | some d => .next (if e.cls = 3 then s.landOpen core endn e d else s.landMessage core endn e d)
    else if e.cls = 3 && ext.length % 8 = 0 && 8 ≤ ext.length then
      .next ((s.landSlots core endn e.nextPos ext).outside core fun env x => x.landRecord env endn e.nextPos ext)
    else .next s

/-- PAD_CONSUMED (R303). -/
def execPadConsumed (core endn : Nat) (s : State) : Result :=
  if endn < 32 then onCore s core fun env x => x.padConsumed env endn else .fault .noSuchUnit

/-- Credit that another chip returns to a send end (R305, R317). -/
def Core.addCredit (c : Core) (endn n : Nat) : Core :=
  let e := c.me.endOf endn
  c.setEnd endn { e with credit := if e.role = 3 then 1 else min e.cap (e.credit + n) }

/-- CREDIT_RETURN (R305): `ext` is the credit of a peer on another chip. -/
def execCreditReturn (core endn : Nat) (ext : Option Nat) (s : State) : Result :=
  if 144 ≤ core then .fault .noSuchCore
  else if 32 ≤ endn then .fault .noSuchUnit
  else
    let e := (s.core core).me.endOf endn
    match ext with
    | some n =>
      if s.live && (e.role == 1 || e.role == 3) && !(s.isHere e.pchip) then .next (s.setCore core ((s.core core).addCredit endn n))
      else .next s
    | none =>
      if e.cls = 3 then .next (s.outside core fun env x => x.creditReturn env endn)
      else .next (s.work core fun env x => x.creditReturn env endn)

/-- The contribution of source `src` to a queue of a core of this chip, with the core that sends it. -/
def State.inComb (s : State) (core queue src : Nat) : Option (Nat × Send × MEnd) :=
  s.cores.entries.findSome? fun k =>
    k.2.te.net.findSome? fun d => match d.kind with
      | .comb n =>
        let e := k.2.me.endOf n
        if s.isHere e.pchip && e.pcore == core && e.pend == queue && e.handle == src then some (k.1, d, e) else none
      | _ => none

/-- A contribution of this chip arrives, once all of it has been read (R304, R314). -/
def State.landContrib (s : State) (core queue src k : Nat) (d : Send) (e : MEnd) : State :=
  let due := if e.cls = 3 then 0 else d.start + 11 + e.dly + cdiv (d.size + 8) 144
  let s := s.readOut k d
  let s := if e.cls = 3 then s else s.work core fun env x => x.runTo env due
  match s.inComb core queue src with
  | none => s
  | some (k, d, _) =>
    if d.data.length != d.total || (e.cls != 3 && !(s.coreRuns core)) then s
    else (s.taken k d.tid).outside core fun _ x => x.arrive queue src due d.data

/-- CONTRIBUTION_ARRIVAL (R314): in the cycle that R304 gives for a message's receivability. -/
def execContributionArrival (core queue src : Nat) (ext : List PNt) (s : State) : Result :=
  if 144 ≤ core then .fault .noSuchCore
  else if 8 ≤ queue || 64 ≤ src then .fault .noSuchUnit
  else if !s.live then .next s
  else
    match s.inComb core queue src with
    | some (k, d, e) => .next (s.landContrib core queue src k d e)
    | none => .next (if ext.isEmpty then s else s.outside core fun _ x => x.arrive queue src 0 ext)

/-- COMBINE (R316). -/
def execCombine (core : Nat) (s : State) : Result := onCore s core fun env x => x.combine env

/-! ### Beacons and deadlock (R319) -/

/-- The beacons with one of an ME put in the place of its last. -/
def putBeacon (l : List Beacon) (b : Beacon) : List Beacon := l.filter (fun x => x.node != b.node) ++ [b]

/-- BEACON (R319): at its core's position of the frame, an ME that is blocked then names the MEs it waits on. -/
def execBeacon (core : Nat) (s : State) : Result :=
  if 144 ≤ core then .fault .noSuchCore
  else if !s.live || (s.core core).me.bkind = 0 then .next s
  else
    let s := s.bring core (s.cyc + (core + 144 - s.frame) % 144)
    let me := (s.core core).me
    if me.bkind = 0 then .next s
    else
      let b : Beacon := ⟨s.meNode 0xFFFF core, me.waits.map fun w => s.meNode w.1 w.2⟩
      let far := (me.waits.map (·.1)).filter fun c => !(s.isHere c)
      let t := { s with beacons := putBeacon s.beacons b }
      .next ((dedup far).foldl (fun s c => s.sendCtl 5 c ((core : Int) :: me.waits.flatMap fun w => [(w.1 : Int), (w.2 : Int)])) t)

/-- A member of this chip: the cycle of its program from which R319 calls the set deadlocked on its account. -/
def State.memberDue (s : State) (c : Nat) : Nat := (s.core c).me.bsince + 65536

/-- A member of this chip whose hold reaches the wait timeout. -/
def State.memberTimeout (s : State) (c : Nat) : Nat := (s.core c).me.bsince + s.val 0x4110 2

/-- CHANNEL_DEADLOCK (R319): every member of a set that the core's ME is in has been blocked for 65,536 cycles, or one for the wait timeout; the error is raised
in the next cycle at frame position 0. -/
def execChannelDeadlock (core : Nat) (s : State) : Result :=
  if 144 ≤ core then .fault .noSuchCore
  else
    let d := s.deadlocked
    if !(d.any fun b => b.node == s.meNode 0xFFFF core) || !(s.coreRuns core) then .next s
    else
      let here := ((s.deadSetOf core).filter fun b => b.node / 256 == s.chipId).map fun b => b.node % 256
      let all := here.foldl (fun m c => max m (s.memberDue c)) 0
      let t := here.foldl (fun m c => min m (s.memberTimeout c)) all
      let s1 := here.foldl (fun s c => s.work c fun env x => x.runTo env t) s
      let s2 := here.foldl (fun s c => s.bring c (s1.cyc + 144 - s1.frame)) s1
      if t ≤ (s1.core core).now && s2.deadlocked.any fun b => b.node == s.meNode 0xFFFF core then
        let g := (s2.core core).eng 5
        .next (s2.effects core [.err .channelDeadlock 5 g.cur g.here.pc 0])
      else .next s

/-! ### Task contexts (R289) -/

/-- Context `x` of an engine could issue: an instruction of the ME also has what R318 would hold it for. -/
def Core.ctxReady (c : Core) (env : Env) (eng x : Nat) : Bool :=
  let g := { c.eng eng with cur := x }
  match (g.ctx x).head with
  | some w =>
    !((g.ctx x).ended) && !(g.boundaryHeld env eng) &&
      ((g.ctx x).waited || c.coup.waitOk eng (waitOf w).1 (waitOf w).2) && (eng != 5 || c.meMet w)
  | none => false

/-- CONTEXT_SWITCH: the head of the context in turn has been held for switch_after cycles, and the next issuable context in rotation
takes over; the engine issues nothing for 2 cycles (R289). -/
def Cx.contextSwitch (x : Cx) (env : Env) (eng : Nat) : Cx :=
  let g := x.c.eng eng
  match g.here.held with
  | none => x
  | some h =>
    let y := x.runTo env (h + env.switchAfter)
    if !(y.reached (h + env.switchAfter)) then { x with late := y.late }
    else
      let g := y.c.eng eng
      let next := ((List.range (g.nctx - 1)).map fun k => (g.cur + 1 + k) % g.nctx).find? fun k => y.c.ctxReady env eng k
      match next with
      | some n =>
        if y.c.stillHeld eng g.cur then
          let c := if eng = 5 then y.c.meFree y.c.now else y.c
          let k := g.here
          let c := if k.scheduled then { c with st := c.st.addSlip (c.heldFor y.c.now k.slipFrom) } else c
          let g := g.setCtx n { g.ctx n with slipFrom := y.c.now + 2 }
          { y with c := c.setEng eng { g with cur := n, st := .running, headFree := y.c.now + 2 } }
        else x
      | none => x

/-- CONTEXT_SWITCH (R289): in Free mode alone. -/
def execContextSwitch (core eng : Nat) (s : State) : Result :=
  if eng < 6 then
    onCore s core fun env x => if env.free && 1 < (x.c.eng eng).nctx then x.contextSwitch env eng else x
  else .fault .noSuchCore

end Sys2Proof.Machine
end

