-- ==== Sys2Proof/Machine/Route.lean ====
section
/-! DEFINITION. How the Jizia and host ports are brought up (R368, R381, R400). -/

namespace Sys2Proof.Machine

/-- The state of a Jizia port that is brought up from nothing (R368, R372). -/
def State.jportStart (s : State) (p : Nat) : Nat :=
  if s.val (0x1200 + p) 1 = 0 then 7 else if s.portMay p then 1 else 0

/-- The chip that is the time root (R373). -/
def State.timeRoot (s : State) : Nat := if s.val 0x1010 9 = 1 then s.chipId else Config.timeRoot

/-- The port on the way to the time root (R365, R373); `none`: this chip is the root. -/
def State.rootPort (s : State) : Option Nat := s.routePort s.timeRoot

/-- The port is no longer Up: a chip whose way to the root it is has to be aligned anew (R373). DESIGN CHOICE (log 148): it is Aligning meanwhile. -/
def State.loseTime (s : State) (p : Nat) : State :=
  if s.rootPort = some p && s.val 0x1010 0xA = 2 then s.setVal 0x1010 0xA 1 else s

/-- A Jizia port is brought up again with nothing kept (R359). -/
def State.restartJport (s : State) (p : Nat) : State := (s.loseTime p).setJport p { JPort.reset with st := s.jportStart p }

/-- Every Jizia port is brought up again. -/
def State.restartJports (s : State) : State := (List.range 12).foldl State.restartJport s

/-- Replace a host port. -/
def State.setHport (s : State) (p : Nat) (h : HPort) : State := { s with hports := s.hports.put p h }

/-- The host ports train, those that are enabled (R381, R400, R490). -/
def State.restartHports (s : State) : State :=
  (List.range 4).foldl (fun s p => (s.setHport p ⟨if s.val (0x1100 + p) 1 = 0 then 4 else 1, []⟩).dropHeld p) s

end Sys2Proof.Machine
end

