-- ==== Sys2Proof/Machine/Entries.lean ====
section
/-! DEFINITION. Submission entries (R385 to R388, R390): which entry of a host queue is next, its fields, and what beginning one
does. -/

namespace Sys2Proof.Machine

/-- A submission entry: its host queue, its number, its TAG and its words. -/
structure Entry where
  q : Nat
  num : Nat
  tag : Nat
  w : List Word
  deriving DecidableEq, Repr

/-- Word `i` of an entry. -/
def Entry.word (e : Entry) (i : Nat) : Word := e.w.getD i 0

/-- OP of an entry. -/
def Entry.op (e : Entry) : Nat := bits (e.word 0) 71 64

/-- CMD of a SESSION entry. -/
def Entry.cmd (e : Entry) : Nat := bits (e.word 1) 71 68

/-- The address of entry `n` of queue `q` (R386). -/
def State.entryAddr (s : State) (q n : Nat) : Nat := s.valAt 0x1180 8 q + 64 * (n % max 1 (s.valAt 0x1180 9 q))

/-- Entry `n` of queue `q` as the submission ring holds it (R386). -/
def State.ringEntry (s : State) (q n : Nat) : Entry :=
  let w := s.mem.readWords (s.entryAddr q n) 8
  ⟨q, n, bits (w.getD 0 0) 63 32, w⟩

/-- The next entry that queue `q` may begin: the queue is Ready and the host has written it (R385, R387, R389). -/
def State.nextEntry (s : State) (q : Nat) : Option Entry :=
  let h := s.queue q
  if s.live && h.st == 1 && h.begun != h.tail then some (s.ringEntry q h.begun) else none

/-- The bits that an operation uses, words 1 to 5 (R387, R388, R395). -/
def entryMasks (op : Nat) : Option (List Nat) :=
  match op with
  | 0 => some [0, 0, 0, 0, 0]
  | 1 => some [rangeMask 43 0, rangeMask 35 0, 0, 0, 0]
  | 2 | 3 => some [rangeMask 15 0, 0, 0, 0, 0]
  | 4 => some [rangeMask 12 0, rangeMask 43 0, rangeMask 9 0, 0, 0]
  | 5 => some [rangeMask 27 0, 0, 0, 0, 0]
  | 6 => some [rangeMask 71 66 + rangeMask 63 48 + rangeMask 19 0, rangeMask 43 0, rangeMask 63 0, rangeMask 31 0, rangeMask 6 0]
  | 7 => some [rangeMask 71 66 + rangeMask 63 52 + rangeMask 9 0, rangeMask 43 0, rangeMask 35 0, 0, 0]
  | _ => none

/-- The operation of an entry is defined; a SESSION names one of the seven commands. -/
def Entry.defined (e : Entry) : Bool :=
  (entryMasks e.op).isSome && (e.op != 6 || (decide (1 ≤ e.cmd) && decide (e.cmd ≤ 7)))

/-- A reserved bit of an entry is set (R386, R387). -/
def Entry.reserved (e : Entry) : Bool :=
  bits (e.word 0) 31 0 != 0 ||
    (match entryMasks e.op with
     | some ms => (List.range 5).any fun i => (e.word (i + 1)).toNat &&& ms.getD i 0 != (e.word (i + 1)).toNat
     | none => true) ||
    e.word 6 != 0 || e.word 7 != 0

/-- The block of an entry reads as poisoned: it is taken as no entry of the host's (log 25). -/
def State.entryPoisoned (s : State) (e : Entry) : Bool :=
  s.mem.poisoned (s.entryAddr e.q e.num)

/-- The entry is begun: it is pending until its completion. -/
def State.beginEntry (s : State) (e : Entry) : State :=
  let h := s.queue e.q
  s.setQueue e.q { h with begun := (h.begun + 1) % 2 ^ 32, active := h.active ++ [(e.num, e.tag)] }

/-- The completion of an entry. -/
def State.answer (s : State) (e : Entry) (status : Nat) (value : Option Nat) : State := s.complete e.q e.tag status value

/-- The next entry of queue `q`, where it is one that `want` names, is read as R257 states and begun; with a reserved bit it completes with
BADENTRY (R387), else `f` says what it does. -/
def onEntry (s : State) (q : Nat) (want : Entry → Bool) (f : State → Entry → State) : Result :=
  if 4096 ≤ q then .fault .noSuchQueue
  else
    match s.nextEntry q with
    | none => .next s
    | some e =>
      if !(want e) then .next s
      else
        let t := (s.latentRead (s.entryAddr q e.num) 64).1.beginEntry e
        if !e.defined || e.reserved || t.entryPoisoned e then .next (t.answer e 10 none) else .next (f t e)

/-- An entry of operation `op`. -/
def isOp (op : Nat) (e : Entry) : Bool := e.op == op

/-- A SESSION entry of command `cmd`. -/
def isCmd (cmd : Nat) (e : Entry) : Bool := e.op == 6 && e.cmd == cmd

/-- NOP_ENTRY: a NOP completes OK, an entry of no defined operation with BADENTRY (R387). -/
def execNopEntry (queue : Nat) (s : State) : Result :=
  onEntry s queue (fun e => e.op == 0 || !e.defined) fun s e => s.answer e 0 none

/-- A queue enters Error: its entries not yet begun are discarded, and complete once it is Ready again (R385). -/
def State.queueError (s : State) (q : Nat) : State :=
  let h := s.queue q
  if h.st != 1 then s
  else
    let n := (h.tail + 2 ^ 32 - h.begun) % 2 ^ 32
    let tags := (List.range (min n 4096)).map fun k => (s.ringEntry q ((h.begun + k) % 2 ^ 32)).tag
    let s := s.setQueue q { h with st := 2, begun := h.tail }
    tags.foldl (fun s t => s.post q ⟨t, 7, 0, Config.noResult t, 0, 0, 0⟩) s

end Sys2Proof.Machine
end

