-- ==== Sys2Proof/Machine/Sequencer.lean ====
section
/-! DEFINITION. The session sequencer (R328 to R343): session entries, transfers of KV copies, commit records, deadline misses, the selection of
a batch and the batch descriptor. -/

namespace Sys2Proof.Machine

/-! ### Session entries (R388) -/

/-- The command of a SESSION entry (R388). -/
def Entry.scmd (e : Entry) : SCmd :=
  ⟨e.q, e.tag, e.cmd, bit (e.word 1) 67, bit (e.word 1) 66, bits (e.word 1) 63 48, bits (e.word 1) 19 0, bits (e.word 2) 43 0,
   bits (e.word 3) 63 0, bits (e.word 4) 31 0, bits (e.word 5) 8 0⟩

/-- A SESSION entry reaches the sequencer. -/
def onSession (s : State) (queue cmd : Nat) : Result := onEntry s queue (isCmd cmd) fun s e => s.arriveCmd e.scmd

/-- CREATE (R329). -/
def execCreate (queue : Nat) (s : State) : Result := onSession s queue 1
/-- SET (R329). -/
def execSet (queue : Nat) (s : State) : Result := onSession s queue 2
/-- RESTORE (R329). -/
def execRestore (queue : Nat) (s : State) : Result := onSession s queue 3
/-- EVICT (R329). -/
def execEvict (queue : Nat) (s : State) : Result := onSession s queue 4
/-- DELETE (R329). -/
def execDelete (queue : Nat) (s : State) : Result := onSession s queue 5
/-- ALOAD (R333). -/
def execAload (queue : Nat) (s : State) : Result := onSession s queue 6
/-- ADFREE (R333). -/
def execAdfree (queue : Nat) (s : State) : Result := onSession s queue 7

/-- RESTORE_LANDED (R329): the copy is written at KV_ADDR and the session becomes Resident, or the transfer failed. -/
def execRestoreLanded (session : Nat) (ok : Bool) (data : List Word) (s : State) : Result :=
  if 1048576 ≤ session then .fault .noSuchUnit
  else
    match s.moving.entries.find? fun e => e.1 == session && e.2.cmd == 3 && !(s.readWait.contains session) with
    | none => .next s
    | some (_, c) =>
      let d := s.sess session
      let s1 := s.endMove session
      if d.failed then .next (s1.answerCmd c 8)
      else if !ok || data.length ≠ d.kvSize / 8 then .next (s1.answerCmd c 6)
      else
        let s2 := { s1 with mem := s1.mem.writeWords d.kvAddr data }
        .next ((s2.toResident session c.image).answerCmd c 0)

/-- EVICT_WRITTEN (R329): the copy has reached the host and the session becomes Idle, or the transfer failed and it stays Resident. -/
def execEvictWritten (session : Nat) (ok : Bool) (s : State) : Result :=
  if 1048576 ≤ session then .fault .noSuchUnit
  else
    match s.moving.entries.find? fun e => e.1 == session && e.2.cmd == 4 with
    | none => .next s
    | some (_, c) =>
      let s1 := s.endMove session
      if ok then .next ((s1.toIdle session false).answerCmd c 0)
      else .next ((s1.setSess session { s1.sess session with drain := false }).answerCmd c 6)

/-- SESSION_DRAIN_TIMEOUT (R335): at 2 ms the session leaves Running with its last commit's state and its command goes on; the record
of its slot, where that step still runs, will be discarded. -/
def execSessionDrainTimeout (session : Nat) (s : State) : Result :=
  if 1048576 ≤ session then .fault .noSuchUnit
  else
    match s.draining.entries.find? fun e => e.1 == session with
    | none => .next s
    | some (_, c) =>
      if s.frozen then .next s
      else
      let s := { s with
        cmds := s.cmds.erase c
        dropped := if s.inStep session then s.dropped ++ [(session, (s.sess session).gen)] else s.dropped }
      .next ((s.endDrain session).drained c)

/-! ### A commit (R325, R335 to R340) -/

/-- The current tick (R325). -/
def State.tickNow (s : State) : Nat := s.time / 10000 % 2 ^ 36

/-- late(d) (R340). -/
def late (d tick : Nat) : Int := sgn 36 ((d + 2 ^ 36 - tick) % 2 ^ 36)

/-- A deadline has passed (R325). -/
def passed (d tick : Nat) : Bool := decide (2 ^ 35 ≤ (d + 2 ^ 36 - tick) % 2 ^ 36)

/-- An output or the notice of a death goes to the queue of a session's QP field (R393, R338). -/
def State.output (s : State) (i : Nat) (d : Sess) (status value : Nat) : State :=
  s.post d.qp ⟨0, status, 1, value, d.user, i, d.gen⟩

/-- The commit record of one slot is read, applied and zeroed (R337 to R339). -/
def State.applyRecord (b : Batch) (tick : Nat) (s : State) (slot : Nat) (i gen : Nat) : State :=
  let k := s.core b.ccore
  let off := (k.handle b.chandle).base + 16 * slot
  let (k, data, effs) := k.bgRead off 16
  let (k, e2) := k.bgWrite off (List.replicate 16 ⟨0, false⟩)
  let s := (s.setCore b.ccore k).effects b.ccore (effs ++ e2)
  let w0 := BitVec.ofNat 72 (ntVal (data.take 8))
  let w1 := BitVec.ofNat 72 (ntVal (data.drop 8))
  let d := s.sess i
  let del := match s.draining.entries.find? fun e => e.1 == i with | some e => e.2.cmd == 5 | none => false
  if d.gen ≠ gen || !d.valid || s.dropped.contains (i, gen) || del || d.failed then
    { s.bump 0x5000 9 1 with dropped := s.dropped.filter (· != (i, gen)) }
  else if anyPoison data then
    let s := match s.draining.entries.find? fun e => e.1 == i with
      | some e => { s with draining := s.draining.erase i, cmds := s.cmds.erase e.2 }.answerCmd e.2 8
      | none => s
    (s.killSess i).output i d 8 (Config.noResult 0)
  else if !(bit w0 71) then s
  else
    let adv := bits w0 47 36
    let s := s.setSess i { d with
      position := (d.position + adv) % 2 ^ 36, samp7 := w1, missed := false
      deadline := if d.interval = 0 then d.deadline else (tick + d.interval) % 2 ^ 36 }
    if adv = 0 then s else s.output i d 0 (bits w0 35 0)

/-- Step 1 of R339. -/
def State.applyRecords (s : State) (p : Prog) (b : Batch) (tick : Nat) : State :=
  p.slotSess.zipIdx.foldl (fun s e => s.applyRecord b tick e.2 e.1.1 e.1.2) s

/-- Step 3 of R339: deadline misses. -/
def State.countMisses (s : State) (b : Batch) (tick : Nat) : State :=
  s.ready.entries.foldl (fun s e =>
    let d := s.sess e.1
    if d.valid && d.base == b.base && passed d.deadline tick && !d.missed then
      (s.setSess e.1 { d with missed := true }).bump 0x5010 (0x10 + d.prio) 1
    else s) s

/-- The key by which R340 orders candidates. -/
def candKey (tick : Nat) (e : Nat × Ready) : List Nat :=
  [7 - e.2.d.prio, (late e.2.d.deadline tick + 2 ^ 35).toNat, match e.2.last with | none => 0 | some n => n + 1, e.1]

/-- Lexicographic order of keys. -/
def keyLt : List Nat → List Nat → Bool
  | [], _ => false
  | _ :: _, [] => false
  | a :: as, b :: bs => decide (a < b) || (a == b && keyLt as bs)

/-- Insert a candidate in order. -/
def insertCand (tick : Nat) (e : Nat × Ready) : List (Nat × Ready) → List (Nat × Ready)
  | [] => [e]
  | x :: xs => if keyLt (candKey tick e) (candKey tick x) then e :: x :: xs else x :: insertCand tick e xs

/-- The candidates of a base model, in the order of R340. -/
def State.candidates (s : State) (b : Batch) (tick : Nat) : List (Nat × Ready) :=
  (s.ready.entries.filter fun e => e.2.d.valid && e.2.d.base == b.base && !e.2.d.drain && !e.2.d.failed).foldl
    (fun l e => insertCand tick e l) []

/-- Word 0 of an adapter entry (R332). -/
def Adapter.word0 (a : Adapter) : Word :=
  packWord [(b2n a.valid, 71), (a.fmt, 68), (sfield 9 a.scale, 59), (a.rank, 51), (a.base, 45)]

/-- Word 1 of an adapter entry (R332). -/
def Adapter.word1 (a : Adapter) : Word := packWord [(a.users, 44), (a.addr, 0)]

/-- The words of a batch slot (R336). -/
def State.slotWords (s : State) (i : Nat) (d : Sess) : List Word :=
  let w := { d with state := 2 }.words
  let a := s.adapter d.adapter
  let w1 := if d.adptEn then BitVec.ofNat 72 (bits a.word0 71 45 * 2 ^ 45 + a.addr) else 0
  [w.getD 0 0, w1, w.getD 2 0, w.getD 3 0, BitVec.ofNat 72 i, w.getD 5 0, w.getD 6 0, w.getD 7 0]

/-- The words of a batch descriptor (R336). -/
def State.batchWords (s : State) (b : Batch) (n step tick : Nat) (chosen : List (Nat × Sess)) : List Word :=
  [BitVec.ofNat 72 (n % 2 ^ 36), BitVec.ofNat 72 (step % 2 ^ 36), BitVec.ofNat 72 tick, BitVec.ofNat 72 chosen.length, 0, 0, 0, 0] ++
    chosen.flatMap (fun e => s.slotWords e.1 e.2) ++ List.replicate (8 * (b.slots - chosen.length)) 0

/-- The batch descriptor is written to every batch handle; protection does not apply (R339). -/
def State.writeBatch (s : State) (b : Batch) (ws : List Word) : State :=
  b.handles.foldl (fun s h =>
    let k := s.core h.1
    let (k, effs) := k.bgWrite (k.handle h.2).base (ws.flatMap fun w => wordNts w false)
    (s.setCore h.1 k).effects h.1 effs) s

/-- Step 4 of R339 (R340): the selection, and the batch descriptor for step `step`. -/
def State.selectBatch (s : State) (n : Nat) (step tick : Nat) : State :=
  match s.prog n with
  | none => s
  | some p =>
    match p.batch with
    | none => s
    | some b =>
      let cands := s.candidates b tick
      let chosen := (cands.take b.slots).map fun e => (e.1, e.2.d)
      let s := cands.foldl (fun s e =>
        let run := chosen.any fun c => c.1 == e.1
        let s := s.setSess e.1 { e.2.d with state := if run then 2 else 1 }
        if run then
          match s.copyOf e.1 with
          | some r => { s with ready := s.ready.put e.1 { r with last := some p.batches } }
          | none => s
        else s) s
      let s := s.writeBatch b (s.batchWords b p.batches step tick chosen)
      (s.updProg n fun p => { p with
        batches := p.batches + 1, slotSess := chosen.map fun e => (e.1, e.2.gen) }).bump 0x5010 3 1

/-- The sequencer's part of a commit of program `n`, whose next step is `step` (R339, R341). -/
def State.sequence (s : State) (n step : Nat) : State :=
  match s.prog n with
  | none => s
  | some p =>
    match p.batch with
    | none => s
    | some b =>
      let tick := s.tickNow
      let s := (s.applyRecords p b tick).updProg n fun p => { p with slotSess := [] }
      let s := s.applyCmds.countMisses b tick
      if (s.candidates b tick).isEmpty && p.lat.holdEmpty then s.updProg n fun p => p.stall .hold
      else s.selectBatch n step tick

/-- EMPTY_HOLD_RELEASE (R341): a boundary action has given a candidate, and the next step begins: the hold was no part of
it (R423). -/
def execEmptyHoldRelease (prog : Nat) (s : State) : Result :=
  match s.prog prog with
  | none => .next s
  | some p =>
    match p.batch with
    | none => .next s
    | some b =>
      let tick := s.tickNow
      let t := s.applyCmds.countMisses b tick
      if s.live && p.stalls.contains .hold && !(t.candidates b tick).isEmpty then
        .next ((t.selectBatch prog p.step tick).updProg prog fun p => { p.unstall .hold with stepStall := 0 })
      else .next s

end Sys2Proof.Machine
end

