-- ==== Sys2Proof/Machine/Resets.lean ====
section
/-! DEFINITION. Resets, power states and the power-up sequence (R474, R482 to R490), and the escalation of a chip (R453 to R456), which
ends in a warm reset. -/

namespace Sys2Proof.Machine

/-! ### What resets share -/

/-- The counts of R343 that return to zero only by cold reset, whatever their class (log 62). -/
def coldOnly (key : Nat) : Bool :=
  let e := key / 2 ^ 16
  e == 0x500008 || e == 0x500009 || (decide (0x501010 ≤ e) && decide (e ≤ 0x501017))

/-- Return the entries of some classes to their defaults where the part does not pass a cold reset (R343, R488). -/
def State.dropWarm (s : State) (drop : OdCls → Bool) : State :=
  { s with dict := s.dict.keep fun k => coldOnly k || !(odDropped drop k) }.dropSess drop 0 0xFFFF

/-- Every crossing is calibrated (R474). -/
def State.calibrate (s : State) : State := { s.bump 0x2010 7 1 with calibrated := true, badCross := [], moves := 0 }

/-- The reset is recorded (R496). -/
def State.recordReset (s : State) (kind : Nat) : State := (s.setVal 0x2200 4 kind).bump 0x2200 5 1

/-- Cores after a reset of their domains: scratchpads and control blocks are lost; a failed core stays failed (R488, R525). -/
def State.resetCores (s : State) : State :=
  { s with cores := ⟨s.cores.entries.filterMap fun e => if e.2.failed then some (e.1, { Core.reset with failed := true }) else none⟩ }

/-- The chip cycle count starts at 0, and with it what is counted in its cycles: the light-path frame, the rest counters, furlongs, forced rest windows and
the cycles of the domains (R254, R284, R472, R475, R477, R495). -/
def State.resetCounts (s : State) : State :=
  { s with cyc := 0, frame := 0, rest := [0, 0, 0, 0, 0, 0], furlong := 0, furlongNo := 0, forcedTo := 0, lastStretch := .empty }

/-- Every valid session of the context table, as the table holds it (R322). -/
def State.tableSessions (s : State) : List (Nat × Sess) :=
  s.mem.words.entries.filterMap fun e =>
    if decide (tableBase / 8 ≤ e.1) && decide (e.1 < tableBase / 8 + 8388608) && e.1 % 8 == 0 && bit e.2 71 then
      let i := (e.1 - tableBase / 8) / 8
      some (i, Sess.ofWords (s.mem.readWords (sessAddr i) 8))
    else none

/-- A descriptor block that arrives poisoned (R323). -/
def State.failTable (s : State) (i : Nat) : State :=
  ((s.setSess i { s.sess i with failed := true }).bump 0x5000 8 1).logChip 0x0203 0xFF i

/-- The session index and the ready store are rebuilt from the table (R342, R486): every Running session is Resident. Places are
given in session order. -/
def State.rebuild (s : State) : State :=
  let l := s.tableSessions
  let bad := l.filter fun e => s.mem.poisoned (sessAddr e.1) && !e.2.failed
  let res := l.filter fun e => e.2.state != 0
  let s := { s with ready := .empty }
  let s := ((s.setVal 0x5000 1 l.length).setVal 0x5000 2 (l.filter fun e => e.2.state == 0).length)
  let s := (s.setVal 0x5000 3 (res.filter fun e => e.2.state == 1).length).setVal 0x5000 4 (res.filter fun e => 2 ≤ e.2.state).length
  let s := s.setVal 0x5100 1 (s.adapters.entries.filter fun e => e.2.valid).length
  let s := res.zipIdx.foldl (fun s e => { s with ready := s.ready.put e.1.1 ⟨e.2, e.1.2, none⟩ }) s
  let s := res.foldl (fun s e => s.setSess e.1 { e.2 with state := 1, drain := false }) s
  bad.foldl (fun s e => s.failTable e.1) s

/-- The mirrored regions in use, as 0x3100 holds them (R261). -/
def State.mirrorRows (s : State) : List Mirror :=
  ((List.range 32).map fun n => (⟨s.val 0x3100 (4 * n + 1), s.val 0x3100 (4 * n + 2), s.val 0x3100 (4 * n + 3), s.val 0x3100 (4 * n + 4)⟩ : Mirror)).filter
    fun r => r.state != 0

/-- Memory follows 0x3100. -/
def State.syncMirrors (s : State) : State := { s with mem := { s.mem with mirrors := s.mirrorRows } }

/-- Windows are lost (R489); a DESTROY that waits completes with DISCARDED. Tags stand, so that every creation changes them (R395). -/
def State.loseWindows (s : State) : State :=
  let s := s.wins.entries.foldl (fun s e => s.endTicket e.2.destroy 7 none) s
  { s with wins := s.wins.mapVals fun _ w => { Win.reset with tag := w.tag } }

/-- The programs that are loaded. -/
def State.progNums (s : State) : List Nat := s.progs.entries.map (·.1)

/-- Every program ends, its START completing with ESCALATED and the last committed step; a record of code 0x0407 is logged for each
(R454 steps 2 and 3, R487). -/
def State.escalatePrograms (s : State) : State :=
  s.progNums.foldl (fun s n =>
    match s.prog n with
    | some p => (s.log ⟨0, 0x0407, 4, n, p.lastCommitted, 0xFF, 0, 0, 0, 0⟩).closeProg n 12 (some p.lastCommitted)
    | none => s) s

/-- Every program ends with DISCARDED (a warm reset by command, log 30). -/
def State.discardPrograms (s : State) : State := s.progNums.foldl (fun s n => s.closeProg n 7 none) s

/-! ### Warm reset (R486, R384) -/

/-- Session commands that wait, drain a session or move its copy complete with DISCARDED (R342, R385). -/
def State.dropCmds (s : State) : State :=
  let l := s.cmds ++ s.moving.entries.map (·.2)
  l.foldl (fun s c => s.answerCmd c 7) { s with cmds := [], draining := .empty, moving := .empty, readWait := [], dropped := [] }

/-- A queue at a warm reset: an enabled queue goes to Error. Completions not yet written are lost (R454); its pending entries complete
with DISCARDED once it is Ready again (R385). -/
def State.warmQueue (s : State) (q : Nat) : State :=
  let h := s.queue q
  if h.st = 0 then s
  else
    let n := (h.tail + 2 ^ 32 - h.begun) % 2 ^ 32
    let new := (List.range (min n 4096)).map fun k => (s.ringEntry q ((h.begun + k) % 2 ^ 32)).tag
    let s := s.setQueue q { HQueue.reset with
      st := 2, tail := h.tail, begun := h.tail, ccons := h.ccons, cprod := h.cprod, overrun := h.overrun, waiting := h.waiting }
    (h.active.map (·.2) ++ new).foldl (fun s t => s.post q ⟨t, 7, 0, Config.noResult t, 0, 0, 0⟩) s

/-- The completions of a queue that have not been written are lost. -/
def State.clearBacklog (s : State) : State := { s with queues := s.queues.mapVals fun _ h => { h with waiting := [] } }

/-- A warm reset (R486), once every program has stopped. Every channel of far memory retrains, and 0x3010.05 counts it for each (R524). `kind` is 3 by command, 4 by escalation, 5 by takeover (R496). -/
def State.warmReset (s : State) (kind : Nat) : State :=
  let s := s.discardPrograms.clearBacklog.dropCmds
  let s := (s.queues.entries.map (·.1)).foldl State.warmQueue s
  let s := s.loseWindows.resetCores.resetCounts
  let s := (s.dropWarm (· == .v)).recordReset kind
  let s := { s with
    timing := [], inbox := [], parts := [], light := [], beacons := [], spans := .empty, txn := none, frz := 0, fired := false, pst := 0, exiting := false
    nearSt := 1, farSt := 1, deficit := [0, 0, 0], strWin := [], limiter := 0, limFull := 0, limForce := false, clocks := true
    vet := none }
  (s.calibrate.bump 0x3010 5 1).restartJports.restartHports.rebuild

/-! ### Escalation (R453 to R456) -/

/-- ESCALATE goes to the other members of every program that spans chips (R454 step 1). -/
def State.tellMembers (s : State) : State :=
  s.progs.entries.foldl (fun s e =>
    if e.2.multi then
      e.2.members.foldl (fun s m => if m = s.chipId then s else s.sendCtl 11 m [(e.2.digest : Int), (e.2.step : Int)]) s
    else s) s

/-- The chip escalates with a cause, whose record is `e` (R454). `kind` is how 0x2200.04 records the warm reset. -/
def State.escalate (s : State) (e : Event) (kind : Nat) : State :=
  let s := (s.tellMembers.log e).escalatePrograms
  let s := ((s.bump 0x7010 8 1).setVal 0x7010 9 e.code).postEvent e.code
  s.warmReset kind

/-- The chip escalates with a cause that names no program. -/
def State.escalateChip (s : State) (code core detail : Nat) : State := s.escalate ⟨0, code, 4, 0, 0, core, 0, 0, 0, detail⟩ 4

/-- ESCALATION (R454): a cause of R453 comes about; its event code is 0x0401 to 0x0404. -/
def execEscalation (cause detail : Nat) (s : State) : Result :=
  if s.powered && decide (0x0401 ≤ cause) && decide (cause ≤ 0x0404) then .next (s.escalateChip cause 0xFF detail) else .next s

/-- CORE_FAULT (R453): the core is Failed (R525). -/
def execCoreFault (core : Nat) (s : State) : Result :=
  if 144 ≤ core then .fault .noSuchCore
  else if s.powered && !(s.fuse.absent.contains core) then
    .next ((s.setCore core { s.core core with failed := true }).escalateChip 0x0402 core core)
  else .next s

/-- CHIP_LEVEL_ERROR (R453). -/
def execChipLevelError (cause : Nat) (s : State) : Result :=
  if s.powered then .next (s.escalateChip 0x0403 0xFF cause) else .next s

/-- PLL_UNLOCK (R453, R492). -/
def execPllUnlock (s : State) : Result :=
  let s := s.bump 0x2000 2 1
  if s.powered then .next (s.escalateChip 0x0403 0xFF 0) else .next s

/-- Two core groups are neighbours on a ring of the grid of six by six groups (R344, R471). -/
def groupsAdjacent (a b : Nat) : Bool :=
  let near (x y : Nat) : Bool := (x + 1) % 6 == y || (y + 1) % 6 == x
  (a / 6 == b / 6 && near (a % 6) (b % 6)) || (a % 6 == b % 6 && near (a / 6) (b / 6))

/-- A crossing between two stretchable domains has a buffer (R473): between adjacent core groups, between the fabric and any other domain, and between a core
group that holds row stations (R471) and the host ports or the memory controllers. -/
def crossing (a b : Nat) : Bool :=
  let station (g d : Nat) : Bool := decide (g < 36) && g % 6 == 5 && decide (36 ≤ d)
  decide (a < 39) && decide (b < 39) && a != b &&
    (a == 36 || b == 36 || station a b || station b a || (decide (a < 36) && decide (b < 36) && groupsAdjacent a b))

/-- CROSSING_CALIBRATION_LOSS (R474): the crossing has Failed, which is a chip-level error. The warm reset calibrates it again, which may fail
again (R493). -/
def execCrossingCalibrationLoss (src dst : Nat) (s : State) : Result :=
  if s.powered && crossing src dst then
    let t := s.escalateChip 0x0403 0xFF (src * 64 + dst)
    .next { t with badCross := if Config.crossFails src dst (t.val 0x2010 7) then [src * 64 + dst] else [] }
  else .next s

/-! ### The other resets (R484, R487, R488) -/

/-- A core reset (R487, R488, R489): every program ends as in an escalation, the core-group domains reset, and what waits for a program's
session goes on. -/
def State.coreReset (s : State) : State :=
  let any := !s.progs.entries.isEmpty
  let s := s.escalatePrograms
  let s := if any then s.postEvent 0x0407 else s
  let s := { s.loseWindows.resetCores.resetCounts with timing := [], parts := [], light := [], beacons := [], spans := .empty, txn := none, vet := none }
  let s := ((s.dropEntries (· == .v) 0x4000 0x4FFF).setVal 0x6000 1 0).recordReset 6
  { if s.clocks then s.calibrate else s with dropped := [] }.applyCmds

/-- The stretchable domains start (R490): crossings are calibrated, memory and the host ports train, and memory is to be zeroed. -/
def State.startDomains (s : State) : State :=
  { s.calibrate.resetCounts.restartHports.restartJports with clocks := true, nearSt := 0, farSt := 0 }

/-- What a cold reset leaves (R484, R485, R488): the always-on domain, classes C and F, and zeroed memory; the domains are not yet
started. `kind` is 1 by RESET_N, 2 by command. -/
def State.coldClear (s : State) (kind : Nat) : State :=
  let t := { State.reset with
    pending := s.pending, fuse := s.fuse, time := s.time, half := s.half, slew := s.slew, slewNs := s.slewNs, dict := s.dict, irs := s.irs, irp := s.irp
    unauthSec := s.unauthSec, unauthN := s.unauthN, events := s.events, acked := s.acked, rate := s.rate, noPrimary := s.noPrimary
    near := s.near, off := s.off, beatMs := s.beatMs, flash := s.flash, pins := s.pins, serial := s.serial, out := s.out }
  (t.dropEntries (fun k => k == .v || k == .w) 0 0xFFFF).recordReset kind

/-- A cold reset by command: the domains start again at once. -/
def State.coldReset (s : State) : State := (s.coldClear 2).startDomains

/-- The part is put and held in cold reset for a reason: 1 RESET_N, 2 48 V, 4 temperature (R484, R565, R576). A part already held
there stays as it is. -/
def State.hold (s : State) (reason : Nat) : State :=
  let t := if s.pins.held = 0 then s.coldClear 1 else s
  { t with pins := { t.pins with held := t.pins.held ||| reason, resetN := t.pins.resetN && reason != 1 } }

/-- A reason that holds the part in cold reset ends; with the last, the domains start (R490, R565, R576). -/
def State.unhold (s : State) (reason : Nat) : State :=
  if s.pins.held &&& reason = 0 then s
  else
    let t := { s with pins := { s.pins with held := s.pins.held - reason, resetN := s.pins.resetN || reason == 1 } }
    if t.pins.held = 0 then t.startDomains else t

/-- A power-on reset (R484, R488, R490): only the fuses, class F and the levels of pins that the board drives stay. -/
def State.powerOn (s : State) : State :=
  let t := { State.reset with
    pending := s.pending, fuse := s.fuse, dict := s.dict, flash := s.flash, serial := s.serial, out := s.out
    pins := { Pins.reset with chainIn := s.pins.chainIn, freezeN := s.pins.freezeN, pps := s.pins.pps, held := 1 ||| (s.pins.held &&& 6) } }
  t.dropEntries (fun k => k == .v || k == .w || k == .c) 0 0xFFFF

/-- CORE_RESET (R487): a commit of 0x2200.03 = 1. -/
def execCoreReset (s : State) : Result := if s.pins.held == 0 && s.managed then .next s.coreReset else .next s

/-- WARM_RESET (R486): a commit of 0x2200.03 = 2. Escalations and takeovers make theirs themselves. -/
def execWarmReset (s : State) : Result := if s.pins.held == 0 && s.managed then .next (s.warmReset 3) else .next s

/-- COLD_RESET (R484): RESET_N holds the part in cold reset; a commit of 0x2200.03 = 3 starts it again at once. -/
def execColdReset (byPin : Bool) (s : State) : Result :=
  if byPin then .next (s.hold 1)
  else if s.pins.held == 0 && s.managed then .next s.coldReset
  else .next s

/-- POWER_ON_RESET (R490). -/
def execPowerOnReset (s : State) : Result := .next s.powerOn

/-- RESET_RELEASE (R490): RESET_N rises; with both inputs valid the domains start. -/
def execResetRelease (s : State) : Result := .next (s.unhold 1)

/-- ZEROING_COMPLETE (R485, R490). -/
def execZeroingComplete (s : State) : Result :=
  if s.powered && !s.zeroed && !s.frozen then .next { s with zeroed := true, nearSt := 1, farSt := 1 } else .next s

/-- RESET_N (R571): low for 5 µs or more is a cold reset, under 3 µs is ignored; a pulse between acts as the part makes of it. -/
def execResetN (lowNs : Nat) (s : State) : Result :=
  if lowNs < 3000 then .next s
  else if 5000 ≤ lowNs || Config.shortReset lowNs then .next (s.hold 1)
  else .next s

/-! ### Inputs and temperature (R565, R576) -/

/-- A fault of the part's supply or temperature: it is logged, the rails shut down, and the part is held in cold reset. -/
def State.railFault (s : State) (reason detail : Nat) : State :=
  if s.pins.held &&& reason = 0 && s.pins.held &&& 8 = 0 then (s.log ⟨0, 0x0403, 4, 0, 0, 0xFF, 0, 0, 0, detail⟩).hold reason else s

/-- INPUT_48V_LOW (R565). -/
def execInput48vLow (s : State) : Result := .next (s.railFault 2 0x20)
/-- INPUT_48V_HIGH (R565). -/
def execInput48vHigh (s : State) : Result := .next (s.railFault 2 0x22)
/-- INPUT_48V_RECOVERY (R565). -/
def execInput48vRecovery (s : State) : Result := .next (s.unhold 2)
/-- OVER_TEMPERATURE (R576). -/
def execOverTemperature (s : State) : Result := .next (s.railFault 4 0x21)
/-- THERMAL_RECOVERY (R576). -/
def execThermalRecovery (s : State) : Result := .next (s.unhold 4)

/-- INPUT_3V3_LOW (R565): every rail shuts down; the always-on domain works no more until POWER_ON_RESET. -/
def execInput3v3Low (s : State) : Result :=
  let t := s.powerOn
  .next { t with pins := { t.pins with held := t.pins.held ||| 8 } }

/-! ### Power states (R482, R483) -/

/-- What Parked loses (R482, R488): scratchpads, control blocks and class V. -/
def State.park (s : State) : State :=
  let s := s.loseWindows.resetCores
  { s.dropWarm (· == .v) with
    pst := 2, exiting := false, parts := [], light := [], nearSt := 2, farSt := 2, vet := none, calibrated := false, forcedTo := 0
    lastStretch := .empty, frz := if s.frozen then s.frz else 0, fired := false }

/-- What Standby loses (R482, R488): everything but classes C and F and memory. -/
def State.standBy (s : State) : State :=
  let s := s.clearBacklog.dropCmds.loseWindows.resetCores
  let s := s.dropWarm fun k => k == .v || k == .w
  { s.syncMirrors with
    pst := 3, exiting := false, clocks := false, nearSt := 2, farSt := 2, vet := none, calibrated := false
    jports := .empty, hports := .empty, held := [], queues := .empty, timing := [], inbox := [], parts := [], light := [], beacons := [], spans := .empty
    deficit := [0, 0, 0], lastStretch := .empty, strWin := [], limiter := 0, limFull := 0, furlong := 0, furlongNo := 0, forcedTo := 0, limForce := false
    ready := .empty, frz := if s.frozen then s.frz else 0, fired := false }

/-- The exit from a power state (R482, R483): from Parked and Standby crossings are calibrated and memory leaves self-refresh. -/
def State.wake (s : State) : State :=
  let t := { s with pst := 0, exiting := false }
  if s.pst = 2 then
    { t.calibrate with nearSt := 1, farSt := 1, rest := [0, 0, 0, 0, 0, 0], lastStretch := .empty }
  else if s.pst = 3 then
    { t.calibrate.restartHports.restartJports.rebuild with clocks := true, nearSt := 1, farSt := 1, rest := [0, 0, 0, 0, 0, 0] }
  else t

/-- A program runs. -/
def State.anyRuns (s : State) : Bool := s.progs.entries.any fun e => e.2.running || e.2.starting

/-- A committed power state is entered (R482); from a deeper one the part wakes on the way. -/
def State.enterPower (s : State) (p : Nat) : State :=
  let s := (if p < s.pst || s.exiting then s.wake else s).setVal 0x2200 1 p
  match p with
  | 1 => { s with pst := 1 }
  | 2 => s.park.setVal 0x2200 1 2
  | 3 => s.standBy.setVal 0x2200 1 3
  | _ => s

/-- A request for a power state is refused (R483). -/
def State.powerRefused (s : State) (p : Nat) : Bool :=
  (p == 1 && s.anyRuns) || (decide (2 ≤ p) && !s.progs.entries.isEmpty)

/-- The return to Active begins (R483); waiting entries begin after EXIT_TO_ACTIVE. -/
def State.beginExit (s : State) : State := if s.pst = 0 then s else { s.setVal 0x2200 1 0 with exiting := true }

/-- A commit of a power state (R483): a refused one rolls back. -/
def State.requestPower (s : State) (p : Nat) : State :=
  if s.pins.held != 0 || !s.managed || s.powerRefused p then s else if p = 0 then s.beginExit else if p = s.pst && !s.exiting then s else s.enterPower p

/-- REQUEST_ACTIVE (R483): only a commit over the management segment ends Standby. -/
def execRequestActive (overSegment : Bool) (s : State) : Result :=
  if s.pst = 3 && !overSegment then .next s else .next (s.requestPower 0)

/-- REQUEST_IDLE (R483). -/
def execRequestIdle (s : State) : Result := .next (s.requestPower 1)
/-- REQUEST_PARKED (R483). -/
def execRequestParked (s : State) : Result := .next (s.requestPower 2)
/-- REQUEST_STANDBY (R483). -/
def execRequestStandby (s : State) : Result := .next (s.requestPower 3)

/-- EXIT_TO_ACTIVE (R482). -/
def execExitToActive (s : State) : Result :=
  if s.exiting && s.pins.held == 0 then .next s.wake else .next s

end Sys2Proof.Machine
end

