-- ==== Sys2Proof/Machine/Remounts.lean ====
section
/-! DEFINITION. The copy of a core's control state that a commit saves and a remount restores (R73, R141, R161, R195, R214, R217, R247,
R269, R275, R278, R290, R321, R444), and what an engine's queue holds of its stream (R88, R89). -/

namespace Sys2Proof.Machine

/-! ### Streams (R88, R89, R288, R404) -/

/-- The stream of a context. -/
def Prog.stream (p : Prog) (core eng ctx : Nat) : Option Stream :=
  p.streams.find? fun t => t.core == core && t.eng == eng && t.ctx == ctx

/-- `n` instructions of a stream from number `i`. -/
def State.streamWords (s : State) (t : Stream) (i n : Nat) : List Word := s.mem.readWords (t.base + 8 * i) (min n (t.count - i))

/-- The first instruction that has not reached a context as its copy holds it: one that follows its loop buffer, or that it has yet to
discard, or the one at its program counter (R83, R86). -/
def CtxCopy.fetchFrom (k : CtxCopy) : Nat := if k.levels.isEmpty then k.pc - k.skip else k.bufBase + k.buf.length

/-! ### The copy (R73) -/

/-- The copy of one context. -/
def Ctx.copy (e x : Nat) (k : Ctx) : CtxCopy := ⟨e, x, k.pc, k.levels, k.buf, k.bufBase, k.skip, k.ended, k.begun⟩

/-- The copy of a core as it stands. -/
def Core.copyState (c : Core) : CoreCopy :=
  { coup := c.coup
    ctxs := c.engs.entries.flatMap fun e => e.2.ctxs.entries.map fun k => k.2.copy e.1 k.1
    sregs := c.sregs, loopCnt := c.loopCnt, areg := c.te.areg, credits := c.te.credits, descs := c.ope.descs, mask := c.ope.mask
    mcfg := c.mve.cfg, vcfg := c.ve.cfg, ptrs := c.ve.ptrs, vcnt := c.ve.vcnt, vcntP := c.ve.vcntP, stats := c.ve.stats
    ends := c.me.ends, rx := c.me.rx, rot := c.me.rot, comb := c.me.comb }

/-- The restored coupling state: each NEXT is the restored TAIL and nothing is in flight (R73, R269). -/
def Coupling.restored (k : Coupling) : Coupling :=
  { k with pos := k.rings.entries.foldl (fun m r => m.write .reset r.1 ⟨r.2.tail, 0⟩) .empty }

/-- A restored channel end: words 2 and 3 stand as they are (R298), and of the credit on its way that stands which was on its way at the commit.
DEDUCED (log 84). -/
def MEnd.restored (saved now : MEnd) : MEnd := { saved with count := now.count, stalls := now.stalls, blocked := false }

/-- What a remount leaves of the units of a core beside the copy (R35, R141, R161, R195, R275, R278). -/
def Core.restoreUnits (c : Core) (k : CoreCopy) : Core :=
  { c with
    coup := k.coup.restored
    sregs := k.sregs
    loopCnt := k.loopCnt
    st := { c.st with stepSlip := 0 }
    te := { c.te with
      areg := k.areg, credits := k.credits
      regs := c.te.regs.mapVals fun _ r => { r with tokens64 := 64 * r.depth } }
    ope := { c.ope with
      live := .zero, shadow := .zero, descs := k.descs, mask := k.mask, tqFill := 0, tqHead := 0, tag0 := none, tag1 := none }
    mve := { c.mve with cfg := k.mcfg, held := .empty, acc := .empty, lane := .empty, rqFill := 0, rqHead := 0 }
    ve := { c.ve with
      cfg := k.vcfg, ptrs := k.ptrs, vcnt := k.vcnt, vcntP := k.vcntP, stats := k.stats, cache := .empty, rndCtr := 0 }
    me := { c.me with
      ends := k.ends.mapVals fun n e => e.restored (c.me.ends.get .reset n)
      rx := k.rx, rot := k.rot, comb := k.comb } }

/-- A restored context with its queue refetched: a host-streamed program's holds every instruction that delivered chunks had reached, a
feeder's the first that fill it (R444 step 5). -/
def State.restoreCtx (s : State) (p : Prog) (core share : Nat) (now : Ctx) (k : CtxCopy) : Ctx :=
  let from_ := k.fetchFrom
  let base : Ctx := { now with
    pc := k.pc, levels := k.levels, buf := k.buf, bufBase := k.bufBase, skip := k.skip, supplied := from_, ended := k.ended, begun := k.begun, queue := []
    held := none, scheduled := false, waited := false, headMask := none }
  let n := if p.feeder then min now.supplied (from_ + k.skip + share) - from_ else now.supplied - from_
  match p.stream core k.eng k.ctx with
  | some t => base.deliver (s.streamWords t from_ n)
  | none => base

/-- Engines of a core begin from their restored contexts, in context 0 (R290, R444), or the next one in rotation whose stream has not ended. -/
def State.restoreEngs (s : State) (p : Prog) (core t : Nat) (c : Core) (k : CoreCopy) : Core :=
  { c with engs := c.engs.mapVals fun e g =>
      let mine := k.ctxs.filter fun x => x.eng == e
      if mine.isEmpty then { g with st := .off }
      else
        let done := mine.all (·.ended)
        { g with
          st := if done then .halted else .running
          cur := match (List.range g.nctx).find? fun n => mine.any fun x => x.ctx == n && !x.ended with | some n => n | none => 0
          ctxs := mine.foldl (fun m x => m.put x.ctx (s.restoreCtx p core g.share (g.ctx x.ctx) x)) g.ctxs
          headFree := t
          boundary := false
          haltPend := false } }

/-- A core returns to a copy, at cycle `t` of its program: what was in flight is discarded, the copy restored, formats follow the group
table, and pending words are cleared (R217, R444). -/
def State.restoreCore (s : State) (p : Prog) (core t : Nat) (k : CoreCopy) : State :=
  let c := s.restoreEngs p core t ((s.core core).stopWork.restoreUnits k) k
  let c := { c with
    now := t, stepStart := t, busyTo := t, saved := k
    train := { c.train with pend := .empty, widenPend := false, firstGroup := 0 } }
  s.setCore core c.followGroups

/-! ### Widening (R214) -/

/-- A group is widened once on a core. -/
def Core.widenGroup (c : Core) (g : Nat) : Core :=
  let e := c.train.groups.get .reset g
  if e.valid then { c with train := { c.train with groups := c.train.groups.write .reset g e.widen } } else c

/-- The widening requests of an attempt are applied on every core of the program. -/
def State.widenGroups (s : State) (cores groups : List Nat) : State :=
  let s := cores.foldl (fun s c => s.setCore c (groups.foldl Core.widenGroup (s.core c))) s
  s.bump 0x6020 3 groups.length

end Sys2Proof.Machine
end

