-- ==== Sys2Proof/Machine/Vetting.lean ====
section
/-! DEFINITION. What a vetting run does at a step boundary (R458 to R460): an armed Patterns or Record run starts there; the record of a
step is taken at its commit. -/

namespace Sys2Proof

/-- What a step's record in far memory says that this chip has not written itself, or that has been changed since (R460, R461): the spec gives the record no
layout. -/
opaque Config.recordOf (m : Machine.Mem) (addr : Nat) : Machine.StepRecord

end Sys2Proof

namespace Sys2Proof.Machine

/-- The octets of the 72 data bits of a core's powered banks (R460). -/
def Scratch.bankOctets (s : Scratch) : List (BitVec 8) :=
  (setBitsOf 16 s.banksOn).flatMap fun b => (List.range 32768).flatMap fun k => toOctets 9 (s.cell (32768 * b + k)).v.toNat

/-- A core's digest (R460). -/
def Core.digest (c : Core) : Nat := Config.sha3 c.scr.bankOctets

/-- The handles of a core that are protected in a step, with their contents (R235, R460). -/
def Core.protectedHandles (c : Core) (step : Nat) : List (Nat × Nat × List PNt) :=
  c.handles.entries.filterMap fun h =>
    if h.2.valid && h.2.protectedIn step then some (h.2.base, h.2.size, c.scr.nts h.2.base h.2.size) else none

/-- The record of a step at its commit, before the copies are replaced (R460). -/
def State.stepRecord (s : State) (p : Prog) : StepRecord :=
  { copies := p.cores.map fun c => (c, (s.core c).saved)
    handles := p.cores.flatMap fun c => ((s.core c).protectedHandles p.step).map fun h => (c, h.1, h.2.1, h.2.2)
    ranges := p.inputs.map fun r => (r.1, s.mem.read r.1 r.2)
    digests := p.cores.map fun c => (c, (s.core c).digest)
    step := p.step
    stepNo := p.stepNo }

/-- The contents and digests that a record holds beside the copies (R460). -/
def StepRecord.named (r : StepRecord) : List Word :=
  r.handles.flatMap (fun h => (chunks 8 h.2.2.2).map fun w => BitVec.ofNat 72 (ntVal w)) ++
    r.ranges.flatMap (fun h => (chunks 8 h.2).map fun w => BitVec.ofNat 72 (ntVal w)) ++
    r.digests.flatMap fun d => (List.range 4).map fun i => BitVec.ofNat 72 (d.2 / 2 ^ (72 * i))

/-- How many words a record takes: a core's copy takes fewer than 65,536 (log 32). -/
def StepRecord.count (r : StepRecord) : Nat := r.named.length + r.copies.length * (Config.copyWords r.step % 65536)

/-- The words of a record, in a layout the spec leaves open (log 32). -/
def StepRecord.words (r : StepRecord) (n : Nat) : List Word := (List.range r.count).map (Config.recordWord n r.named)

/-- The record of the named step is written at its commit (R460). -/
def State.recordAtCommit (s : State) (n : Nat) (p : Prog) : State :=
  match s.vet with
  | some v =>
    if v.action = 2 && v.prog = n && v.step = p.step && !v.running then
      let r := s.stepRecord p
      let ws := r.words s.serial
      let s := { s with recd := some (ws, r), serial := s.serial + 1, mem := s.mem.writeWords v.addr ws }
      ((s.setVal 0x7200 0xB (8 * ws.length)).setVet (some { v with running := true }) 2).updProg n fun p => p.stall .vetting
    else s
  | none => s

/-- A core's contexts may be filled from any place of their streams. -/
def Core.supplyAll (c : Core) : Core :=
  { c with engs := c.engs.mapVals fun _ g => { g with ctxs := g.ctxs.mapVals fun _ k => { k with supplied := k.total } } }

/-- The record at a far address (R460, R461): this chip's last one where its words still stand there. -/
def State.recordAt (s : State) (a : Nat) : StepRecord :=
  match s.recd with
  | some (ws, r) => if s.mem.readWords a ws.length = ws then r else Config.recordOf s.mem a
  | none => Config.recordOf s.mem a

/-- The recorded step is put in place (R461 steps 1 and 2): copies and handle contents go to the partner cores, ranges back in place. -/
def State.placeRecord (s : State) (p : Prog) (r : StepRecord) : State :=
  let s := (r.copies.filter fun e => p.cores.contains (rotated e.1)).foldl (fun s e =>
    let k := rotated e.1
    (s.setCore k (s.core k).supplyAll).restoreCore { p with feeder := true } k 0 e.2) s
  let s := (r.handles.filter fun h => p.cores.contains (rotated h.1)).foldl (fun s h =>
    let k := rotated h.1
    let c := s.core k
    s.setCore k { c with scr := c.scr.writeNts h.2.1 h.2.2.2 }) s
  { s with mem := r.ranges.foldl (fun m e => m.write e.1 e.2) s.mem }

/-- The twin runs the recorded step (R461 step 3); its seed is the job seed (log 34). -/
def State.beginReplay (s : State) (n : Nat) (p : Prog) (r : StepRecord) : State :=
  (s.placeRecord p r).setProg n { p with
    running := true, starting := false, lat := s.latch, seed := s.val 0x6010 1 % 2 ^ 36, step := r.step, stepNo := r.stepNo
    base := s.cyc - p.stallCycles, t0 := 0, stepStall := 0, stalls := [], trigs := [] }

/-- An armed Patterns run or Replay that names a program starts at its step boundary, as a whole-machine stall (R458). What a replay finds of the
program's cores it keeps. -/
def State.vetAtBoundary (s : State) (n : Nat) : State :=
  match s.vet, s.prog n with
  | some v, some p =>
    if v.prog != n || v.running then s
    else if v.action = 1 then (s.setVet (some { v with running := true }) 2).updProg n fun p => p.stall .vetting
    else if v.action = 3 then
      let r := s.recordAt v.addr
      let held := some (p, p.cores.map fun c => (c, s.core c), s.cyc)
      (s.setVet (some { v with running := true, step := r.step, held := held }) 2).beginReplay n p r
    else s
  | _, _ => s

/-- The program is a twin that replays a recorded step: its run ends where the step would commit (R461). -/
def State.replays (s : State) (n : Nat) : Bool :=
  match s.vet with
  | some v => v.action == 3 && v.running && v.prog == n
  | none => false

end Sys2Proof.Machine
end

