-- ==== Sys2Proof/Machine/Programs.lean ====
section
/-! DEFINITION. Programs from their START to their end (R87 to R93, R374 to R376, R410, R436 to R447, R455): the fill and the start, feeds,
steps and commits, remounts, and a program that spans chips. -/

namespace Sys2Proof.Machine

/-! ### The fill (R88, R89, R288) -/

/-- Each context's queue holds its share or its whole stream (R89). -/
def State.filled (s : State) (p : Prog) : Bool :=
  p.streams.all fun t =>
    let g := (s.core t.core).eng t.eng
    decide (min g.share t.count ≤ (g.ctx t.ctx).supplied)

/-- Instructions arrive in a context's queue, and a feed stall for it ends in the next cycle (R90). -/
def State.deliver (s : State) (n : Nat) (t : Stream) (ws : List Word) : State :=
  let c := s.core t.core
  let g := c.eng t.eng
  let s := s.setCore t.core (c.setEng t.eng (g.setCtx t.ctx ((g.ctx t.ctx).deliver ws)))
  match s.prog n with
  | some p =>
    if p.stalls.contains (.feed t.core t.eng t.ctx) then (s.addCycles 1).updProg n fun p => p.unstall (.feed t.core t.eng t.ctx) else s
  | none => s

/-- A host-streamed program's queues are filled from its stream sections at its START (R410). -/
def State.fillAll (s : State) (n : Nat) (p : Prog) : State :=
  p.streams.foldl (fun s t => s.deliver n t (s.streamWords t 0 ((s.core t.core).eng t.eng).share)) s

/-! ### START, STOP, STREAM, SIGNAL (R387) -/

/-- The program that an entry names in word 1. -/
def Entry.progNum (e : Entry) : Nat := bits (e.word 1) 15 0

/-- START (R387, R390, R411, R436, R526): the settings and the seed are taken over and the fill begins. -/
def State.startProg (s : State) (e : Entry) : State :=
  let n := e.progNum
  match s.prog n with
  | none => s.answer e 9 none
  | some p =>
    let multi := p.streams.any fun t => t.ctx != 0
    if p.starting || p.running || p.stopping || (multi && s.val 0x6000 1 == 0) then s.answer e 9 none
    else
      let p := { p with
        starting := true, start := some ⟨e.q, e.tag⟩, seed := s.val 0x6010 1 % 2 ^ 36, step := p.firstStep, stepNo := 0, lat := s.latch
        stalls := [.startup] }
      let s := s.setProg n p
      if p.feeder then s else s.fillAll n p

/-- START (R387). -/
def execStart (queue : Nat) (s : State) : Result := onEntry s queue (isOp 2) State.startProg

/-- An engine is disabled (R74): what has not issued is discarded, and what has issued may complete. In Draining `headFree` holds the chip
cycle in which it began. -/
def Engine.drainOut (g : Engine) (at_ : Nat) : Engine :=
  if g.st = .off || g.st = .halted || g.st = .draining then g
  else { g with
    st := .draining, haltPend := true, headFree := at_
    ctxs := g.ctxs.mapVals fun _ k => { k with
      queue := [], held := none, scheduled := false, waited := false, headMask := none, buf := [], levels := [], skip := 0 } }

/-- Every engine of a core is disabled in chip cycle `at_`; a hold of the ME ends, and its cycles are counted (R74, R298). -/
def Core.drainOut (c : Core) (at_ : Nat) : Core :=
  let c := c.meFree c.now
  { c with engs := c.engs.mapVals fun _ g => g.drainOut at_ }.settleHalts

/-- A program is stopped: every engine drains (R93); it ends when each is Halted. -/
def State.stopProg (s : State) (n : Nat) : State :=
  match s.prog n with
  | none => s
  | some p =>
    let s := p.cores.foldl (fun s c => s.setCore c ((s.core c).drainOut s.cyc)) s
    (s.setProg n { p with stopping := true, stalls := [], trigs := [], starting := false, running := p.running }).settleStop n

/-- STOP (R93). -/
def State.stopEntry (s : State) (e : Entry) : State :=
  match s.prog e.progNum with
  | none => s.answer e 9 none
  | some p =>
    if p.stopping then s.answer e 9 none
    else (s.setProg e.progNum { p with stop := some ⟨e.q, e.tag⟩ }).stopProg e.progNum

/-- STOP (R93). -/
def execStop (queue : Nat) (s : State) : Result := onEntry s queue (isOp 3) State.stopEntry

/-- STREAM's fields: core, engine, context, chunk address, instructions. -/
def Entry.chunk (e : Entry) : Nat × Nat × Nat × Nat × Nat :=
  (bits (e.word 1) 7 0, bits (e.word 1) 10 8, bits (e.word 1) 12 11, bits (e.word 2) 43 0, bits (e.word 3) 9 0)

/-- A STREAM names the next undelivered instructions of a started host-streamed program (R410): its program and stream. -/
def State.chunkOk (s : State) (e : Entry) : Option (Nat × Stream) :=
  let (core, eng, ctx, addr, len) := e.chunk
  match (s.core core).prog with
  | none => none
  | some n =>
    match s.prog n with
    | none => none
    | some p =>
      match p.stream core eng ctx with
      | none => none
      | some t =>
        let k := ((s.core core).eng eng).ctx ctx
        if !p.feeder && (p.starting || p.running) && !p.stopping && addr == t.base + 8 * k.supplied && decide (1 ≤ len) &&
            decide (len ≤ 512) && decide (k.supplied + len ≤ t.count) then some (n, t)
        else none

/-- A STREAM waits for room in its engine's queue (R387, R388). -/
def State.chunkWaits (s : State) (e : Entry) : Bool :=
  match s.chunkOk e with
  | some (_, t) =>
    let g := (s.core t.core).eng t.eng
    decide (g.share < (g.ctx t.ctx).queue.length + bits (e.word 3) 9 0)
  | none => false

/-- STREAM (R410). -/
def State.streamEntry (s : State) (e : Entry) : State :=
  match s.chunkOk e with
  | none => s.answer e 9 none
  | some (n, t) =>
    let k := ((s.core t.core).eng t.eng).ctx t.ctx
    (s.deliver n t (s.streamWords t k.supplied (bits (e.word 3) 9 0))).answer e 0 none

/-- STREAM (R387): a chunk that waits for room holds its queue, and nothing happens yet. -/
def execStream (queue : Nat) (s : State) : Result :=
  onEntry s queue (fun e => isOp 4 e && !(s.chunkWaits e)) State.streamEntry

/-- SIGNAL (R387, R444 step 6). -/
def State.signalEntry (s : State) (e : Entry) : State :=
  let n := e.progNum
  let c := bits (e.word 1) 23 16
  let k := bits (e.word 1) 27 24
  match s.prog n with
  | none => s.answer e 9 none
  | some p =>
    if !(p.cores.contains c) then s.answer e 9 none
    else ((s.setCore c ((s.core c).bump k)).setProg n { p with signals := p.signals ++ [(c, k)] }).answer e 0 none

/-- SIGNAL (R387). -/
def execSignal (queue : Nat) (s : State) : Result := onEntry s queue (isOp 5) State.signalEntry

/-! ### The feeder and feed stalls (R88, R90) -/

/-- The context that a core's feeder fills next: 128 free entries, and instructions to come. -/
def State.feedable (s : State) (p : Prog) (core eng : Nat) : Option Stream :=
  p.streams.find? fun t =>
    let g := (s.core core).eng eng
    t.core == core && t.eng == eng && decide ((g.ctx t.ctx).supplied < t.count) &&
      decide ((g.ctx t.ctx).queue.length + 128 ≤ g.share)

/-- The feeder takes the tokens of one group (R276 to R278); where they are short, cycles pass until they are there. -/
def State.feedTokens (s : State) (core : Nat) : Option State :=
  let need := 64 * 1024
  let r := (s.core core).te.reg 3
  if r.tokens64 < need && (r.rate = 0 || 64 * r.depth < need) then none
  else
    let w := if need ≤ r.tokens64 then 0 else cdiv (need - r.tokens64) r.rate
    let s := if w = 0 then s else if s.coreRuns core then s.work core fun env x => x.runTo env (x.c.now + w) else s.addCycles w
    let c := s.core core
    let r := c.te.reg 3
    if r.tokens64 < need then none
    else some (s.setCore core { c with te := { c.te with regs := c.te.regs.write .reset 3 { r with tokens64 := r.tokens64 - need } } })

/-- FEEDER_READ (R88): one group of the stream, of 128 instructions, is read and delivered. -/
def execFeederRead (core eng : Nat) (fault : ReadFault) (s : State) : Result :=
  if 144 ≤ core || 6 ≤ eng then .fault .noSuchCore
  else
    match (s.core core).prog with
    | none => .next s
    | some n =>
      match s.prog n with
      | none => .next s
      | some p =>
        match s.feedable p core eng with
        | none => .next s
        | some t =>
          if !s.live || !p.feeder || !(p.starting || p.running) || p.stopping then .next s
          else
            match s.feedTokens core with
            | none => .next s
            | some u =>
              let i := (((u.core core).eng eng).ctx t.ctx).supplied
              let addr := t.base + 8 * i
              let v := (u.checkedRead addr 1024 fault).1
              .next (v.deliver n t (v.streamWords t i (128 - i % 128)))

/-- FEED_STALL (R90): an engine finds its queue empty while its stream has instructions to come. -/
def execFeedStall (core eng : Nat) (s : State) : Result :=
  if 144 ≤ core || 6 ≤ eng then .fault .noSuchCore
  else if !(s.coreRuns core) then .next s
  else
    match (s.core core).prog with
    | none => .next s
    | some n =>
      let g := (s.core core).eng eng
      let k := g.here
      if g.active && k.head.isNone && !k.ended && decide (k.supplied < k.total) then
        .next (s.updProg n fun p => p.stall (.feed core eng g.cur))
      else .next s

/-! ### The start (R89, R253, R376, R436) -/

/-- Engines of a core begin. -/
def Engine.begin (g : Engine) : Engine := if g.st = .idle then { g with st := .running, headFree := 0 } else g

/-- The start cycle of a program (R89, R253, R278, R342, R376, R436): its first batch is written, its counts are 0, and the copy of
R73 is taken. The formats of bound handles are those of their groups (R204), no re-read has been hidden (R255), and the settings and the mode are those of
now (R422). -/
def State.beginProg (s : State) (n : Nat) : State :=
  let s := s.selectBatch n ((s.prog n).elim 0 (·.step)) s.tickNow
  match s.prog n with
  | none => s
  | some p =>
    let s := p.cores.foldl (fun s c =>
      let k := s.core c
      let k := { k with
        now := 0
        stepStart := 0
        busyTo := 0
        engs := k.engs.mapVals fun _ g => g.begin
        st := { k.st with stepSlip := 0 }
        ve := { k.ve with rndCtr := 0 }
        te := { k.te with regs := k.te.regs.mapVals fun _ r => { r with tokens64 := 64 * r.depth } } }
      let k := k.followGroups
      s.setCore c { k with saved := k.copyState }) s
    let rest := s.rest.zipIdx.map fun e => if p.nearStacks.contains e.2 then 0 else e.1
    let spans := p.nearStacks.foldl (fun m k => m.put k 0) s.spans
    { s with rest := rest, spans := spans }.setProg n { p with
      starting := false, running := true, stalls := p.stalls.filter (· != Stall.startup) ++ s.restLeft, base := s.cyc - p.stallCycles, t0 := 0, stepStall := 0
      lat := s.latch, signals := [] }

/-- PROGRAM_START (R89): on one chip, once the queues are filled. -/
def execProgramStart (prog : Nat) (s : State) : Result :=
  match s.prog prog with
  | none => .next s
  | some p => if s.live && p.starting && !p.multi && s.filled p then .next (s.beginProg prog) else .next s

/-! ### Across chips: the barrier (R374 to R376) -/

/-- The coordinator of a barrier group (R374). -/
def Prog.coordinator (p : Prog) : Nat := p.members.foldl min 0xFFFF

/-- This chip coordinates the program. -/
def State.leads (s : State) (p : Prog) : Bool := p.coordinator == s.chipId

/-- How a control flit identifies a program: its image digest and step number (R440). -/
def Prog.name (p : Prog) : List Int := [(p.digest : Int), (p.step : Int)]

/-- A control flit to every other member. -/
def State.tellAll (s : State) (p : Prog) (kind : Nat) (info : List Int) : State :=
  p.members.foldl (fun s m => if m = s.chipId then s else s.sendCtl kind m (p.name ++ info)) s

/-- The chip's time counter is aligned (R373), as the root's own is. -/
def State.aligned (s : State) : Bool := s.val 0x1010 0xA == 2 || s.val 0x1010 9 == 1

/-- A list that holds a number once. -/
def addOnce (l : List Nat) (n : Nat) : List Nat := if l.contains n then l else l ++ [n]

/-- BARRIER_READY (R374): this chip's loader has met the start condition, or a member's READY reaches the coordinator, which may itself have had no START yet. -/
def execBarrierReady (prog chip : Nat) (s : State) : Result :=
  match s.prog prog with
  | none => .next s
  | some p =>
    if !s.live || !p.multi || p.running || p.stopping || !(p.members.contains chip) then .next s
    else if chip = s.chipId then
      if !p.starting || p.readySent || !(s.filled p) || !s.aligned then .next s
      else
        let s := s.setProg prog { p with readySent := true, ready := addOnce p.ready chip }
        .next (if s.leads p then s else s.sendCtl 6 p.coordinator p.name)
    else if s.leads p then .next (s.setProg prog { p with ready := addOnce p.ready chip })
    else .next s

/-- The release time that the coordinator sets (R374): its time counter, the margin and the largest path latency at 0.5 ns a cycle. -/
def State.releaseTime (s : State) (p : Prog) : Nat := s.time + s.val 0x1010 0xB + cdiv p.slots.path 2

/-- Cycles pass up to a time in ns: all of them at once, or, while the counter slews, never more than are sure to be needed. -/
def State.approach (t : Nat) : Nat → State → State
  | 0, s => s
  | f + 1, s =>
    let d := 2 * t - (2 * s.time + b2n s.half)
    if d = 0 then s else State.approach t f (s.addCycles (if s.slew = 0 then d else max 1 (d - d / 2500 - 2)))

/-- Time passes to the first cycle that begins at or after a time in ns (R374). -/
def State.passToTime (s : State) (t : Nat) : State := State.approach t 64 s

/-- A member starts at T + 4 ns (R374), unless RELEASE came after T: then its program does not start, and the chip escalates (R375). -/
def State.releasedAt (s : State) (n t : Nat) : State :=
  if t < s.time then (s.bump 0x1010 0xD 1).escalateChip 0x0403 0xFF t
  else ((s.passToTime (t + 4)).bump 0x1010 0xC 1).beginProg n

/-- BARRIER_RELEASE (R374, R375): the coordinator holds every READY, sets T and sends RELEASE; or RELEASE with T reaches a member. -/
def execBarrierRelease (prog t : Nat) (s : State) : Result :=
  match s.prog prog with
  | none => .next s
  | some p =>
    if !s.live || !p.multi || !p.starting || !p.readySent then .next s
    else if s.leads p then
      if p.members.all fun m => p.ready.contains m then
        let rel := s.releaseTime p
        .next ((s.tellAll p 7 [(rel : Int)]).releasedAt prog rel)
      else .next s
    else .next (s.releasedAt prog t)

/-! ### Steps and commits (R436 to R440) -/

/-- The SE of a core has issued its STEP, or is Off or Halted (R438). -/
def Core.steppedOrDone (c : Core) : Bool :=
  let g := c.eng 0
  g.boundary || g.st == .halted || g.st == .off

/-- The latest cycle in which an issued instruction of a core completes or a write of it takes effect; `none`: not yet fixed. -/
def Core.lastDue (c : Core) : Option Nat :=
  if c.infl.any fun i => i.due.isNone then none
  else
    let a := c.infl.foldl (fun m i => max m (i.due.getD 0)) 0
    some (c.pend.foldl (fun m p => max m p.due) a)

/-- The cycle after everything that the program's cores have issued has completed; `none`: some of it waits for outside traffic. -/
def State.quietAt (s : State) (p : Prog) : Option Nat :=
  p.cores.foldl (fun m c =>
    match m, (s.core c).lastDue with
    | some a, some d =>
      let k := s.core c
      some (max a (max k.now (if k.infl.isEmpty && k.pend.isEmpty then 0 else d + 1)))
    | _, _ => none) (some 0)

/-- Every engine of the program is Halted or Off: its last step ends (R87, R438). -/
def State.lastStepOf (s : State) (p : Prog) : Bool := p.cores.all fun c => (s.core c).allDone

/-- The conditions of R438 that concern a core: everything it issued has completed, and nothing it sent is still on its way. -/
def Core.quiet (c : Core) : Bool :=
  c.infl.isEmpty && c.pend.isEmpty && c.te.sends.isEmpty && c.te.outb.isEmpty && c.te.net.isEmpty && c.te.landing.isEmpty && c.te.lightq.isEmpty && c.ope.drain.isNone && c.mve.streams.isEmpty

/-- An SE of the program has issued its STEP on this chip (R438). -/
def State.stepsHere (s : State) (p : Prog) : Bool := p.cores.any fun c => ((s.core c).eng 0).boundary

/-- Every engine of a core is Halted or Off, or stands at the first instruction of a step to come (R437). -/
def Core.atBoundary (c : Core) (env : Env) : Bool :=
  (List.range 6).all fun e => match (c.eng e).st with | .off | .halted => true | _ => (c.eng e).boundaryHeld env e

/-- The conditions of R438 hold on this chip. Where no SE of this chip takes part in the boundary, one of another chip of the program does. -/
def State.commitReady (s : State) (p : Prog) : Bool :=
  p.issues && !p.stopping && p.trigs.isEmpty && p.cores.all (fun c => (s.core c).quiet) &&
    (s.lastStepOf p || (p.cores.all (fun c => (s.core c).steppedOrDone) &&
      (s.stepsHere p || (p.multi && p.cores.all fun c => (s.core c).atBoundary (s.env c)))))

/-- The cycles until everything issued has completed pass. -/
def State.settleProg (s : State) (n : Nat) : State :=
  match s.prog n with
  | none => s
  | some p =>
    if !p.issues || !s.live then s
    else
      match s.quietAt p with
      | some t => p.cores.foldl (fun s c => s.work c fun env x => x.runTo env t) s
      | none => s

/-- The pending words of a group, merged over the program's cores (R209, R210). -/
def State.mergedPend (s : State) (cores : List Nat) (g : Nat) : GPend :=
  cores.foldl (fun m c => m.merge ((s.core c).train.pend.get .reset g)) .reset

/-- The groups that any core of the program uses. -/
def State.groupsOf (s : State) (cores : List Nat) : List Nat :=
  dedup (cores.flatMap fun c => (s.core c).train.groups.entries.map (·.1))

/-- The entry of a group on the program's cores. -/
def State.groupOf (s : State) (cores : List Nat) (g : Nat) : Group :=
  cores.foldl (fun m c => if m.valid then m else (s.core c).train.groups.get .reset g) .reset

/-- The entry of a group that some chip of the program uses: this chip's, or as another has sent it (R210). -/
def State.groupHere (s : State) (p : Prog) (g : Nat) : Group :=
  let e := s.groupOf p.cores g
  if e.valid then e
  else match p.merged.find? fun m => m.group == g with
    | some m => { Group.reset with valid := true, fmt := m.fmt, maxfmt := m.maxfmt }
    | none => e

/-- The merged format result (R210): the groups of any chip whose selection returns a format. -/
def State.formatResult (s : State) (p : Prog) (pend : Nat → GPend) : List GroupResult :=
  (dedup (s.groupsOf p.cores ++ p.merged.map (·.group))).filterMap fun g =>
    let e := s.groupHere p g
    if !e.valid || !(pend g).valid then none
    else
      match selectFmt e.fmt p.lat.headroom p.lat.margin (pend g) with
      | none => none
      | some _ =>
        let r := e.commit p.lat.headroom p.lat.margin (pend g)
        some ⟨g, r.1.fmt, r.1.scale, r.2⟩

/-- The result of one group on a core (R210). -/
def Core.applyResult (c : Core) (r : GroupResult) : Core :=
  let e := c.train.groups.get .reset r.group
  if !e.valid then c
  else
    let bound := c.train.binds.entries.any fun b => b.2.valid && b.2.group == r.group
    { c with train := { c.train with
      groups := c.train.groups.write .reset r.group
        { e with fmt := r.fmt, scale := r.scale, widened := e.widened && !(decide (r.fmt < e.fmt)) }
      ceil := c.train.ceil || (r.low && bound) } }

/-- A core at the commit point (R73, R210, R439): formats follow the merge, pending words are cleared, the copy is saved, and the next
step begins. -/
def Core.commitCore (c : Core) (rs : List GroupResult) : Core :=
  let c := rs.foldl Core.applyResult c
  let c := { c with
    train := { c.train with pend := .empty }
    engs := c.engs.mapVals fun _ g => { g with boundary := false }
    st := { c.st with stepSlip := 0 }
    ve := { c.ve with rndCtr := 0 } }.followGroups
  { c with stepStart := c.now, saved := c.copyState }

/-- The cycle from which its commit holds a program: what its step does by the schedule has come to its end on this chip (R282, R424, R428). -/
def State.doneAt (s : State) (p : Prog) : Nat := p.cores.foldl (fun m c => max m (s.core c).busyTo) p.t0

/-- The commit is a whole-machine stall from that cycle on (R424): the cycles that have passed since, in which outbound buffers were emptied and outside
traffic completed, were stall cycles. -/
def State.commitStall (s : State) (n : Nat) : State :=
  match s.prog n with
  | none => s
  | some p =>
    let t := s.doneAt p
    let k := s.progCycle p - t
    (p.cores.foldl (fun s c => s.setCore c { s.core c with now := t }) s).setProg n { p with
      stallCycles := p.stallCycles + k, stepStall := p.stepStall + k }

/-- The commit point and what follows it on this chip (R339, R423, R439): at the end of its last step the program ends (R87). -/
def State.commitStep (s : State) (n : Nat) (rs : List GroupResult) (last : Bool) : State :=
  match s.prog n with
  | none => s
  | some p =>
    let s := s.recordAtCommit n p
    let s := p.cores.foldl (fun s c => s.setCore c ((s.core c).commitCore rs)) s
    let t := s.progCycle p
    let s := s.updProg n fun p => { p with
      committed := some p.step, step := (p.step + 1) % 2 ^ 36, stepNo := p.stepNo + 1, t0 := t, lastStep := t - p.t0, sched := p.sched + (t - p.t0)
      stepStall := 0, stepErr := 0, stepWide := 0, widenReq := [], overLogged := [], signals := [], doneSent := false, done := []
      stepped := [], ended := [], merged := [], results := [], errElse := false, lat := s.latch }
    let s := s.sequence n ((p.step + 1) % 2 ^ 36)
    if last then s.endProg n 0 none else s.vetAtBoundary n

/-- STEP_COMMIT (R439), on one chip. -/
def execStepCommit (prog : Nat) (s : State) : Result :=
  let t := s.settleProg prog
  match t.prog prog with
  | none => .next s
  | some p =>
    if t.live && !p.multi && !(t.replays prog) && t.commitReady p then
      .next ((t.commitStall prog).commitStep prog (t.formatResult p (t.mergedPend p.cores)) (t.lastStepOf p))
    else .next s

/-- The merged pending words that STEP_DONE carries (R440). -/
def State.doneSummaries (s : State) (p : Prog) : List GroupSummary :=
  (s.groupsOf p.cores).filterMap fun g =>
    let w := s.mergedPend p.cores g
    let e := s.groupOf p.cores g
    if w.valid then some ⟨g, w.any, w.nonfin, w.top, w.low, e.fmt, e.maxfmt⟩ else none

/-- A summary as a control flit carries it. -/
def GroupSummary.info (g : GroupSummary) : List Int :=
  [(g.group : Int), (b2n g.any : Int), (b2n g.nonfin : Int), g.top, g.low, (g.fmt : Int), (g.maxfmt : Int)]

/-- A result as a control flit carries it. -/
def GroupResult.info (g : GroupResult) : List Int := [(g.group : Int), (g.fmt : Int), g.scale, (b2n g.low : Int)]

/-- The merge of the summaries that the coordinator holds for a group. -/
def Prog.mergedOf (p : Prog) (g : Nat) : GPend :=
  p.merged.foldl (fun m e => if e.group = g then m.merge ⟨true, e.nonfin, e.any, e.top, e.low⟩ else m) .reset

/-- STEP_DONE of a member is held by the coordinator (R440). -/
def Prog.holdDone (p : Prog) (chip : Nat) (d : DoneNews) : Prog :=
  { p with
    done := addOnce p.done chip, merged := p.merged ++ d.summaries
    stepped := if d.stepped then addOnce p.stepped chip else p.stepped, ended := if d.ended then addOnce p.ended chip else p.ended }

/-- What STEP_DONE of this chip carries. -/
def State.doneNews (s : State) (p : Prog) : DoneNews := ⟨s.doneSummaries p, s.stepsHere p, s.lastStepOf p⟩

/-- A member's news as a control flit carries it. -/
def DoneNews.info (d : DoneNews) : List Int := (b2n d.stepped : Int) :: (b2n d.ended : Int) :: d.summaries.flatMap GroupSummary.info

/-- STEP_DONE (R440): the conditions hold on this chip, or a member's flit reaches the coordinator. -/
def execStepDone (prog chip : Nat) (news : DoneNews) (s : State) : Result :=
  let t := if chip = s.chipId then s.settleProg prog else s
  match t.prog prog with
  | none => .next s
  | some p =>
    if !t.live || !p.multi || !p.running || !(p.members.contains chip) then .next s
    else if chip = t.chipId then
      if p.doneSent || !(t.commitReady p) then .next s
      else
        let d := t.doneNews p
        let u := (t.commitStall prog).updProg prog fun p => { Prog.holdDone p chip d with doneSent := true, stalls := p.stalls ++ [.commit] }
        .next (if t.leads p then u else u.sendCtl 8 p.coordinator (p.name ++ DoneNews.info d))
    else if t.leads p && !(p.done.contains chip) then .next (t.setProg prog (p.holdDone chip news))
    else .next s

/-- The coordinator may send COMMIT (R438, R440): it holds STEP_DONE of every member, and an SE of some member has issued its STEP, or every engine of
every member is Halted or Off. -/
def Prog.mayCommit (p : Prog) : Bool :=
  p.members.all (fun m => p.done.contains m) && (!p.stepped.isEmpty || p.members.all fun m => p.ended.contains m)

/-- COMMIT_FLIT (R440): the coordinator holds every STEP_DONE and no REMOUNT came, and sends COMMIT; or COMMIT reaches a member. The program ends where every
engine on every chip is Halted or Off (R87). -/
def execCommitFlit (prog : Nat) (news : CommitNews) (s : State) : Result :=
  match s.prog prog with
  | none => .next s
  | some p =>
    if !s.live || !p.multi || !p.doneSent || p.remounting then .next s
    else
      let open_ (s : State) : State := s.updProg prog fun p => p.unstall .commit
      if s.leads p then
        if p.mayCommit then
          let rs := s.formatResult p p.mergedOf
          let last := p.members.all fun m => p.ended.contains m
          .next ((open_ (s.tellAll p 9 ((b2n last : Int) :: rs.flatMap GroupResult.info))).commitStep prog rs last)
        else .next s
      else .next ((open_ s).commitStep prog news.results news.last)

/-! ### Remounts (R442 to R447) -/

/-- The length of the present attempt, stalls included (R423). -/
def State.attempt (s : State) (p : Prog) : Nat := (s.progCycle p - p.t0) + p.stepStall

/-- The replay begins (R444 steps 2 to 7): widenings are applied, copies restored, counts returned to the step's first cycle, and the
host's SIGNALs applied again. A remount of error triggers, of this chip or another, counts as an error remount alone (R215, R446). -/
def State.replay (s : State) (n : Nat) : State :=
  match s.prog n with
  | none => s
  | some p =>
    let err := p.errElse || p.trigs.any Trig.counts
    let wide := !err && !p.widenReq.isEmpty
    let spent := if p.remounting then 0 else s.attempt p
    let s := s.widenGroups p.cores p.widenReq
    let s := p.cores.foldl (fun s c => s.restoreCore p c p.t0 (s.core c).saved) s
    let s := p.signals.foldl (fun s g => s.setCore g.1 ((s.core g.1).bump g.2)) s
    let s := { s.dropFlits n p with light := s.light.filter fun f => !(p.cores.contains f.src) }
    let s := if err then s.bump 0x7010 7 1 else s
    s.setProg n { p with
      stalls := s.restLeft, remounting := false, replayAt := none, trigs := [], widenReq := [], doneSent := false, done := [], stepped := [], ended := [], merged := []
      results := [], errElse := false, base := s.cyc - p.stallCycles - p.t0, lost := p.lost + spent, stepStall := 0
      errRemounts := if err then p.errRemounts + 1 else p.errRemounts
      stepErr := if err then p.stepErr + 1 else p.stepErr
      wideRemounts := if wide then p.wideRemounts + 1 else p.wideRemounts
      stepWide := if wide then p.stepWide + 1 else p.stepWide }

/-- A trigger that counts comes in the third attempt (R447). -/
def Prog.thirdFailure (p : Prog) : Bool := p.trigs.any Trig.counts && decide (2 ≤ p.stepErr)

/-- The chip escalates at a third failure (R447, R453). -/
def State.thirdFail (s : State) (n : Nat) (p : Prog) : State := s.escalate ⟨0, 0x0401, 4, n, p.step, 0xFF, 0, 0, 0, 0⟩ 4

/-- A chip stops for a remount and waits for the replay (R445): what is in flight is discarded, and the attempt's length is counted; the gap that follows
belongs to no attempt (R423, R444). -/
def State.holdRemount (s : State) (n : Nat) (p : Prog) : State :=
  (p.cores.foldl (fun s c => s.setCore c (s.core c).stopWork) (s.dropFlits n p)).setProg n { p with
    remounting := true, stalls := [.gap], lost := p.lost + s.attempt p }

/-- What REMOUNT carries of an attempt: whether one of its triggers counts against the budget, and the groups to be widened (R214, R446). -/
def Prog.failure (p : Prog) : List Int :=
  (b2n (p.errElse || p.trigs.any Trig.counts) : Int) :: p.widenReq.map Int.ofNat

/-- The coordinator sets the replay time, where it is not set, and sends REMOUNT with it to every member (R445). -/
def State.leadRemount (s : State) (n : Nat) : State :=
  match s.prog n with
  | none => s
  | some p =>
    let rel := p.replayAt.getD (s.releaseTime p)
    (s.tellAll p 10 ((rel : Int) :: p.failure)).setProg n { p with replayAt := some rel }

/-- REMOUNT (R444, R445): on one chip the step is replayed at once; across chips this one stops and tells the coordinator, and replays in the
first cycle at or after T + 4 ns, once it has T. -/
def execRemount (prog : Nat) (s : State) : Result :=
  match s.prog prog with
  | none => .next s
  | some p =>
    if !s.powered || !p.running || p.stopping || s.frozen then .next s
    else if p.remounting then
      if p.thirdFailure then .next (s.thirdFail prog p)
      else match p.replayAt with
      | some t => .next ((s.passToTime (t + 4)).replay prog)
      | none => .next s
    else if p.trigs.isEmpty then .next s
    else if p.thirdFailure then .next (s.thirdFail prog p)
    else if !p.multi then .next (s.replay prog)
    else
      let t := s.holdRemount prog p
      .next (if s.leads p then t.leadRemount prog else t.sendCtl 10 p.coordinator (p.name ++ p.failure))

/-- REMOUNT_FLIT (R445, R446): a member's REMOUNT reaches the coordinator, which stops, sets T and tells every member; or REMOUNT with T reaches a
member, which stops, and tells the coordinator of triggers that it has raised itself. -/
def execRemountFlit (prog chip : Nat) (r : RemountNews) (s : State) : Result :=
  match s.prog prog with
  | none => .next s
  | some p =>
    if !s.live || !p.multi || !p.running || p.stopping || chip = s.chipId || !(p.members.contains chip) then .next s
    else if p.thirdFailure then .next (s.thirdFail prog p)
    else
      let q := { p with errElse := p.errElse || r.err, widenReq := r.groups.foldl addOnce p.widenReq }
      let u := if p.remounting then s.setProg prog q else s.holdRemount prog q
      if s.leads p then .next (u.leadRemount prog)
      else
        let v := u.updProg prog fun k => { k with replayAt := some r.at_ }
        .next (if p.remounting || p.trigs.isEmpty then v else v.sendCtl 10 p.coordinator (p.name ++ p.failure))

/-- HANG (R361, R439, R442): a link stall, a flit in a timing buffer or a commit has lasted more than 2 ms. -/
def execHang (prog : Nat) (s : State) : Result :=
  match s.prog prog with
  | none => .next s
  | some p =>
    let link := p.stalls.any fun c => match c with | .link .. => true | _ => false
    let held := s.timing.any fun f => f.prog == prog
    let commit := p.cores.all (fun c => (s.core c).steppedOrDone) && p.cores.any fun c => ((s.core c).eng 0).boundary
    if s.live && (link || held || commit) then .next (s.trigger prog 0xFF .hang 0 0 0 0) else .next s

/-- ESCALATE (R455): the program is escalated by another member: it ends alone, with code 0x0406. -/
def execEscalate (prog : Nat) (s : State) : Result :=
  match s.prog prog with
  | none => .next s
  | some p =>
    if !s.live || !p.multi then .next s
    else
      let t := (s.log ⟨0, 0x0406, 4, prog, p.lastCommitted, 0xFF, 0, 0, 0, 0⟩).endProg prog 12 (some p.lastCommitted)
      .next (t.postEvent 0x0406)

/-- The cycles for which an engine may drain (R74): 2 ms. -/
def drainCycles : Nat := 4000000

/-- ENGINE_DRAIN_TIMEOUT (R74): what a draining engine still has in flight after 2 ms is discarded, and every engine of the core goes to
Halted; where something comes about before then that no command has brought yet, nothing happens. -/
def execEngineDrainTimeout (core eng : Nat) (s : State) : Result :=
  if 144 ≤ core || 6 ≤ eng then .fault .noSuchCore
  else if s.live && ((s.core core).eng eng).st == .draining then
    let end_ := ((s.core core).eng eng).headFree + drainCycles
    let t := s.bring core end_
    let c := t.core core
    if (c.eng eng).st != .draining then .next t
    else if t.coreRuns core && decide (t.coreCycle core < end_) then .next s
    else
      let u := t.setCore core c.stopWork
      match c.prog with
      | some n => .next (u.settleStop n)
      | none => .next u
  else .next s

end Sys2Proof.Machine
end

