-- ==== Sys2Proof/Machine/VetRuns.lean ====
section
/-! DEFINITION. Vetting runs (R458 to R463): the commits that start them, the replay of a recorded step by a twin, and their end. -/

namespace Sys2Proof.Machine

/-- A commit can be made: the management plane works, which lies in the always-on domain (R513, R534). -/
def State.commits (s : State) : Bool := s.managed

/-- The cores that the three words of 0x7200.03 to 0x7200.05 name. -/
def coreMask (cores : List Nat) : Nat := cores.foldl (fun m c => if nbit m c then m else m + 2 ^ c) 0

/-- The entries of 0x7200 that a vetting command commits with its action. -/
def State.setVetting (s : State) (action prog : Nat) : State := (s.setVal 0x7200 1 action).setVal 0x7200 2 prog

/-- A program runs. -/
def State.isRunning (s : State) (n : Nat) : Bool := match s.prog n with | some p => p.running && !p.stopping | none => false

/-- Patterns begins on every present core that it names (R458, R459): armed until the boundary of a running program that it names, at once otherwise. -/
def State.beginPatterns (s : State) (cores : List Nat) (prog : Nat) : State :=
  let l := cores.filter fun c => decide (c < 144) && !(s.fuse.absent.contains c)
  let v : Vet := ⟨1, prog, l, 0, 0, !(s.isRunning prog), none⟩
  s.setVet (some v) (if v.running then 2 else 1)

/-- PATTERNS (R459): the commit fails while a run is Armed or Running (R463). -/
def execPatterns (cores : List Nat) (prog : Nat) (s : State) : Result :=
  if !s.commits || !s.live || s.vet.isSome then .next s
  else
    let m := coreMask (cores.filter (· < 144))
    let s := (s.setVetting 1 prog).setVal 0x7200 3 (nbits m 63 0)
    let s := (s.setVal 0x7200 4 (nbits m 127 64)).setVal 0x7200 5 (nbits m 143 128)
    .next (s.beginPatterns cores prog)

/-- A far range may take a record (R463): usable far memory, aligned, clear of sealed segments and of mirror copies. -/
def State.recordAreaOk (s : State) (a n : Nat) : Bool :=
  a % 1024 == 0 && decide (farBase ≤ a) && decide (a + n ≤ farEnd) && !(s.mem.touchesMirror a n) &&
    s.seals.all fun r => decide (a + n ≤ r.1) || decide (r.1 + r.2 ≤ a)

/-- A Record can be armed: one chip, the 144-core grade, and room for the record (R460, R463). -/
def State.recordOk (s : State) (prog addr : Nat) : Bool :=
  match s.prog prog with
  | some p => !p.multi && !s.fuse.grade132 && s.recordAreaOk addr (max 1024 (8 * (s.stepRecord p).count))
  | none => false

/-- RECORD (R460): the record is taken at the commit of the named step. -/
def execRecord (prog step addr : Nat) (s : State) : Result :=
  if !s.commits || !s.live || s.vet.isSome || !(s.recordOk prog addr) then .next s
  else
    let s := ((s.setVetting 2 prog).setVal 0x7200 6 step).setVal 0x7200 7 addr
    .next (s.setVet (some ⟨2, prog, [], step, addr, false, none⟩) 1)

/-- A Replay begins (R458, R461): at once with a twin that does not run, armed until the next step boundary of a running program. The record is that at
record_addr. -/
def State.armReplay (s : State) (prog : Nat) (p : Prog) : State :=
  let a := s.val 0x7200 7
  let r := s.recordAt a
  if p.running || p.starting then s.setVet (some ⟨3, prog, p.cores, 0, a, false, none⟩) 1
  else (s.setVet (some ⟨3, prog, p.cores, r.step, a, true, none⟩) 2).beginReplay prog p r

/-- REPLAY (R458, R461). -/
def execReplay (prog : Nat) (s : State) : Result :=
  match s.prog prog with
  | some p => if !s.commits || !s.live || s.vet.isSome then .next s else .next ((s.setVetting 3 prog).armReplay prog p)
  | none => .next s

/-- What a pattern run leaves of a core (R459, R462): its other state as a remount of its program leaves it, and its count of near misses at 0. A core
whose program does not run keeps its engines as they wait for the start. -/
def State.patternCore (s : State) (c : Nat) : State :=
  let k := s.core c
  let idle (s : State) : State := s.setCore c { k.stopWork.restoreUnits k.copyState with engs := k.engs }
  let s := match k.prog with
    | some n => (match s.prog n with | some p => if p.running then s.restoreCore p c k.now k.saved else idle s | none => idle s)
    | none => idle s
  s.setCore c { s.core c with nearSince := 0, suggested := false }

/-- A run has ended in state `st`, 3 Passed or 4 Failed (R466). -/
def State.endVet (s : State) (st : Nat) : State := (s.setVet none st).logChip 0x0602 0xFF st

/-- The first recorded core, in number order, whose partner's digest differs (R461 step 4). -/
def State.replayFails (s : State) (r : StepRecord) : Option Nat :=
  (r.digests.filter fun d => (s.core (rotated d.1)).digest != d.2).foldl (fun m d =>
    match m with | some k => some (min k d.1) | none => some d.1) none

/-- After a replay the twin stays loaded; a program that a replay has held goes on from its step boundary, after a stall, with what the record has left in
its scratchpads (log 33). -/
def State.afterReplay (s : State) (n : Nat) (p : Prog) (v : Vet) : State :=
  match v.held with
  | some (h, l, t) =>
    (l.foldl (fun s e => s.setCore e.1 { e.2 with scr := (s.core e.1).scr, bgFree := (s.core e.1).bgFree }) s).setProg n
      { h with stallCycles := h.stallCycles + (s.cyc - t) }
  | none => p.cores.foldl (fun s c => s.setCore c (s.core c).stopWork) (s.setProg n { p with running := false })

/-- A replay ends where the twin's step would commit. -/
def State.endReplay (s : State) (v : Vet) : State :=
  let t := s.settleProg v.prog
  match t.prog v.prog with
  | some p =>
    if !(t.commitReady p) then s
    else
      let fail := t.replayFails (t.recordAt v.addr)
      let u := t.afterReplay v.prog p v
      match fail with
      | some c => (u.setVal 0x7200 9 c).endVet 4
      | none => u.endVet 3
  | none => s

/-- VETTING_RUN_END (R459 to R461): a pattern that failed on a core is a core fault (R453). -/
def execVettingRunEnd (failing : Option Nat) (s : State) : Result :=
  match s.vet with
  | none => .next s
  | some v =>
    if !v.running || !s.live then .next s
    else if v.action = 3 then .next (s.endReplay v)
    else
      let s := s.updProg v.prog fun p => { p.unstall .vetting with stepStall := 0 }
      if v.action = 2 then .next (s.endVet 3)
      else
        let s := v.cores.foldl State.patternCore s
        match failing with
        | none => .next (s.endVet 3)
        | some c =>
          if !(v.cores.contains c) then .next (s.endVet 3)
          else
            let s := (s.setVal 0x7200 9 c).endVet 4
            .next ((s.setCore c { s.core c with failed := true }).escalateChip 0x0402 c c)

end Sys2Proof.Machine
end

