-- ==== Sys2Proof/Machine/Stores.lean ====
section
/-! DEFINITION. Near and far memory, mirrored regions, the scrubber, bank power and the core map (R240 to R242, R252 to R263, R519,
R525). -/

namespace Sys2Proof.Machine

/-! ### Rest windows and near re-reads (R252 to R255, R260) -/

/-- REST_WINDOW (R252): the stack's rest counter enters a window. -/
def execRestWindow (stack : Nat) (s : State) : Result :=
  if 6 ≤ stack then .fault .noSuchUnit
  else if s.counts then .next (s.passToRest stack)
  else .next s

/-- NEAR_REREAD (R255): the first of a span is hidden. A block that fails again is poisoned, where no mirror can give it. -/
def execNearReread (addr : Nat) (ok : Bool) (stall : Nat) (s : State) : Result :=
  if !(isNear addr) || !s.counts then .next s
  else
    let t := s.readAgain addr stall
    .next (if ok || t.mirrored addr then t else t.poisonBlock addr)

/-- MIRROR_READ (R260): a block of an Active region is read from the mirror. -/
def execMirrorRead (addr : Nat) (ok : Bool) (stall : Nat) (s : State) : Result :=
  .next (if s.mirrored addr && s.counts then s.fromMirror addr ok stall else s)

/-! ### Mirrored regions (R259, R261, R262) -/

/-- Where a copy of a region lies: the number of its stack, 6 in far memory; `none` elsewhere. -/
def copyPlace (a n : Nat) : Option Nat :=
  if n = 0 then none
  else if isNear a && isNear (a + n - 1) && nearStack a == nearStack (a + n - 1) then some (nearStack a)
  else if isFar a && isFar (a + n - 1) then some 6
  else none

/-- One region follows R259. -/
def Mirror.placed (r : Mirror) : Bool :=
  r.primary % 1024 == 0 && r.mirror % 1024 == 0 && r.size % 1024 == 0 &&
    (match copyPlace r.primary r.size, copyPlace r.mirror r.size with
     | some a, some b => a != b
     | _, _ => false)

/-- Two regions overlap. -/
def Mirror.overlaps (r t : Mirror) : Bool :=
  meets r.primary r.size t.primary t.size || meets r.primary r.size t.mirror t.size ||
    meets r.mirror r.size t.primary t.size || meets r.mirror r.size t.mirror t.size

/-- Regions in use follow R259. -/
def mirrorsOk : List Mirror → Bool
  | [] => true
  | r :: rs => r.placed && !(rs.any r.overlaps) && mirrorsOk rs

/-- Region `n` of 0x3100 as the entries hold it. -/
def State.mirrorRow (s : State) (n : Nat) : Mirror :=
  ⟨s.val 0x3100 (4 * n + 1), s.val 0x3100 (4 * n + 2), s.val 0x3100 (4 * n + 3), s.val 0x3100 (4 * n + 4)⟩

/-- The state that a commit gives a region (R261); `none`: the commit fails. A region in use whose place changes is copied again
(log 36). -/
def mirrorNext (old new : Mirror) : Option Nat :=
  let moved := old.state != 0 && (old.primary != new.primary || old.mirror != new.mirror || old.size != new.size)
  match new.state with
  | 0 => some 0
  | 1 => if old.state = 0 || old.state = 3 || moved then some 3 else some 1
  | 2 => if old.state = 2 && !moved then some 2 else none
  | _ => if old.state = 0 || old.state = 3 || moved then some 3 else none

/-- The region is Split (R262). -/
def State.splitRegion (s : State) (n : Nat) : State :=
  (((s.setVal 0x3100 (4 * n + 4) 2).syncMirrors).bump 0x7020 7 1).logChip 0x0202 0xFF n

/-- The Active region whose primary copy holds an address. -/
def State.activeRegion (s : State) (a : Nat) : Option Nat :=
  (List.range 32).find? fun n =>
    let r := s.mirrorRow n
    r.state == 1 && decide (r.primary ≤ a) && decide (a < r.primary + r.size)

/-- The two copies of a block differ. -/
def State.copiesDiffer (s : State) (n a : Nat) : Bool :=
  let r := s.mirrorRow n
  let b := a / 64 * 64
  s.mem.words.readList 0 (b / 8) 8 != s.mem.words.readList 0 ((r.mirror + (b - r.primary)) / 8) 8

/-- MIRROR_SYNC_DONE (R261): the background copy is complete. -/
def execMirrorSyncDone (region : Nat) (s : State) : Result :=
  if 32 ≤ region then .fault .noSuchUnit
  else
    let r := s.mirrorRow region
    if r.state ≠ 3 || !s.counts then .next s
    else
      let m := s.mem.copyRange r.primary r.mirror (r.size / 64)
      .next ({ s with mem := m }.setVal 0x3100 (4 * region + 4) 1).syncMirrors

/-- A commit of region states is applied: `old` are the regions before it. -/
def State.applyMirrors (s : State) (old : Nat → Mirror) : State :=
  ((List.range 32).foldl (fun s n =>
    match mirrorNext (old n) (s.mirrorRow n) with
    | some st => s.setVal 0x3100 (4 * n + 4) st
    | none => s) s).syncMirrors

/-- A commit leaves regions that R259 and R261 accept. -/
def State.mirrorsCommit (s : State) (old : Nat → Mirror) : Bool :=
  mirrorsOk (((List.range 32).map s.mirrorRow).filter fun r => r.state != 0) &&
    (List.range 32).all fun n => (mirrorNext (old n) (s.mirrorRow n)).isSome

/-- A commit leaves region `n` as R259 and R261 ask, beside the others in use. -/
def State.regionCommit (s : State) (old : Nat → Mirror) (n : Nat) : Bool :=
  let r := s.mirrorRow n
  (mirrorNext (old n) r).isSome &&
    (r.state == 0 || (r.placed && (List.range 32).all fun k => k == n || (s.mirrorRow k).state == 0 || !(r.overlaps (s.mirrorRow k))))

/-- MIRROR_STATE (R261): a commit that breaks R259 fails and changes nothing. -/
def execMirrorState (region state : Nat) (s : State) : Result :=
  if 32 ≤ region then .fault .noSuchUnit
  else
    let t := s.setVal 0x3100 (4 * region + 4) state
    if s.commits && decide (state ≤ 3) && t.mirrorsCommit s.mirrorRow then .next (t.applyMirrors s.mirrorRow) else .next s

/-! ### The scrubber (R262, R263) -/

/-- The blocks of near and far memory. -/
def memBlocks : Nat := (6 * stackSize + (farEnd - farBase)) / 64

/-- A block has been scrubbed; once every one has, a full pass is done (R263, log 35). -/
def State.countScrub (s : State) (a : Nat) : State :=
  let m := s.scrubbed.put (a / 64) 1
  if memBlocks ≤ m.entries.length then { s with scrubbed := .empty }.bump 0x3110 4 1 else { s with scrubbed := m }

/-- The two copies of a block of an Active region are compared, where both pass their checks (R262). -/
def State.compareCopies (s : State) (a : Nat) : State :=
  match s.activeRegion a with
  | some n => if s.copiesDiffer n a then s.splitRegion n else s
  | none => s

/-- A block of near or far memory is read and checked (R262), near memory in a rest window. A failed block is handled as in any other read;
the copies are compared where neither has failed its check, and `mirror` says of the mirror's that it has. -/
def State.scrubBlock (s : State) (a : Nat) (fault : ReadFault) : State :=
  if s.nearWaits a then s
  else
    let s := if isNear a then s.passToRest (nearStack a) else s
    match fault with
    | .failed (b :: _) =>
      let t := s.badBlock (a / 64 * 64) b
      (if b.again || b.mirror then t else t.compareCopies a).countScrub a
    | .failed [] => (s.compareCopies a).countScrub a
    | .none => (s.compareCopies a).countScrub a
    | .refused => s

/-- SCRUB_READ (R262). -/
def execScrubRead (addr : Nat) (fault : ReadFault) (s : State) : Result :=
  if s.val 0x3110 1 = 0 || !s.counts then .next s
  else
    match region s.fuse.absent addr with
    | .scratch c off =>
      .next (match s.bgRead c (off / 8 * 8) 8 none with | some r => r.1 | none => s)
    | .near _ => .next (s.scrubBlock addr fault)
    | .far => .next (s.scrubBlock addr fault)
    | _ => .next s

/-- SCRUBBER_ENABLE (R263). -/
def execScrubberEnable (on : Bool) (s : State) : Result :=
  if s.commits then .next (s.setVal 0x3110 1 (b2n on)) else .next s

/-! ### Bank power (R240 to R242) -/

/-- The words of a bank are lost. -/
def Scratch.forgetBank (t : Scratch) (b : Nat) : Scratch :=
  { t with cells := t.cells.keep (fun q => bankOfWord q != b), upset := t.upset.keep fun q => bankOfWord q != b }

/-- A bank begins to wake (R241). -/
def Scratch.wakeBank (t : Scratch) (b : Nat) : Scratch :=
  if nbit t.banksOn b then t else { t with banksWaking := setBit t.banksWaking b true }

/-- A bank is awake: every word is unwritten (R241). -/
def Scratch.bankAwake (t : Scratch) (b : Nat) : Scratch :=
  { t.forgetBank b with banksWaking := setBit t.banksWaking b false, banksOn := setBit t.banksOn b true }

/-- A bank powers down; one that was requested again meanwhile wakes anew. -/
def Scratch.bankDown (t : Scratch) (b : Nat) : Scratch :=
  let t := { t.forgetBank b with banksDraining := setBit t.banksDraining b false, banksOn := setBit t.banksOn b false }
  if nbit t.banksReq b then t.wakeBank b else t

/-- A bank begins to drain in chip cycle `now`: accesses that are in flight then may finish (R242). -/
def Scratch.drainBank (t : Scratch) (b now : Nat) : Scratch :=
  if nbit t.banksDraining b then t else { t with banksDraining := setBit t.banksDraining b true, drainFrom := t.drainFrom.put b now }

/-- A commit of a core's bank word in chip cycle `now`: set bits wake, cleared bits of powered banks drain (R241, R242). -/
def Scratch.request (t : Scratch) (mask now : Nat) : Scratch :=
  (List.range 16).foldl (fun t b =>
    if nbit mask b then t.wakeBank b
    else if nbit t.banksOn b then t.drainBank b now
    else { t with banksWaking := setBit t.banksWaking b false }) { t with banksReq := mask }

/-- A valid handle of a loaded program overlaps a bank (R242). -/
def Core.bankUsed (c : Core) (b : Nat) : Bool :=
  c.prog.isSome && c.handles.entries.any fun h =>
    h.2.valid && decide (h.2.base < 0x40000 * (b + 1)) && decide (0x40000 * b < h.2.base + h.2.size)

/-- A commit of a core's bank word is accepted (R240, R242). -/
def State.banksOk (s : State) (core mask : Nat) : Bool :=
  decide (core < 144) && decide (mask < 65536) && !(s.fuse.absent.contains core) && decide (s.pst ≤ 1) && s.powered &&
    (List.range 16).all fun b => nbit mask b || !((s.core core).bankUsed b)

/-- It is applied. -/
def State.applyBanks (s : State) (core mask : Nat) : State :=
  let c := s.core core
  s.setCore core { c with scr := c.scr.request mask s.cyc }

/-- BANKS_CORE (R242). -/
def execBanksCore (core mask : Nat) (s : State) : Result :=
  if 144 ≤ core then .fault .noSuchCore
  else if s.commits && s.banksOk core mask then .next (s.applyBanks core mask)
  else .next s

/-- BANK_WAKE (R241). -/
def execBankWake (core bank : Nat) (s : State) : Result :=
  if 144 ≤ core then .fault .noSuchCore
  else if 16 ≤ bank then .fault .noSuchUnit
  else
    let c := s.core core
    if s.counts && nbit c.scr.banksWaking bank then .next (s.setCore core { c with scr := c.scr.bankAwake bank }) else .next s

/-- BANK_DRAIN_TIMEOUT (R242). -/
def execBankDrainTimeout (core bank : Nat) (s : State) : Result :=
  if 144 ≤ core then .fault .noSuchCore
  else if 16 ≤ bank then .fault .noSuchUnit
  else
    let c := s.core core
    if s.counts && nbit c.scr.banksDraining bank then .next (s.setCore core { c with scr := c.scr.bankDown bank }) else .next s

/-! ### The core map (R519, R525) -/

/-- The enabled bits of all cores, from 0x4000.05 to 0x4000.07. -/
def State.enabledMask (s : State) : Nat := s.val 0x4000 5 + 2 ^ 64 * s.val 0x4000 6 + 2 ^ 128 * s.val 0x4000 7

/-- A core is present, enabled and has no core fault. -/
def State.coreUsable (s : State) (c : Nat) : Bool :=
  decide (c < 144) && !(s.fuse.absent.contains c) && nbit s.enabledMask c && !(s.core c).failed

/-- No bit of an absent core is set (R525). -/
def State.coreMapOk (s : State) : Bool :=
  decide (s.enabledMask < 2 ^ 144) && s.fuse.absent.all fun c => !(nbit s.enabledMask c)

/-- The bits of one word of the core map, 0x4000.05 to 0x4000.07, name present cores alone (R525). -/
def State.mapWordOk (s : State) (part : Nat) : Bool :=
  let w := s.val 0x4000 (5 + part)
  decide (w < 2 ^ (if part = 2 then 16 else 64)) && s.fuse.absent.all fun c => c / 64 != part || !(nbit w (c % 64))

/-- The cores that a commit disables drain, and every program on them ends with DISCARDED (R74, R519). -/
def State.drainCores (s : State) (old : Nat) : State :=
  let gone := (List.range 144).filter fun c => nbit old c && !(nbit s.enabledMask c)
  let progs := s.progs.entries.filterMap fun e => if e.2.cores.any fun c => gone.contains c then some e.1 else none
  progs.foldl State.stopProg s

/-- CORE_ENABLE (R519, R525): `part` is 0 to 2, for 0x4000.05 to 0x4000.07. -/
def execCoreEnable (part mask : Nat) (s : State) : Result :=
  if 3 ≤ part then .fault .noSuchUnit
  else
    let t := s.setVal 0x4000 (5 + part) mask
    if s.commits && decide (mask < 2 ^ 64) && t.coreMapOk then .next (t.drainCores s.enabledMask) else .next s

end Sys2Proof.Machine
end

