-- ==== Sys2Proof/Machine/Images.lean ====
section
/-! DEFINITION. Images as they lie in far memory (R401 to R406): the header, the section table, streams and declarations, and the checks
that the spec makes on their words alone (R8, R406, R416 checks 1 to 3). -/

namespace Sys2Proof.Machine

/-! ### Header and sections (R401 to R404) -/

/-- A section of an image. -/
structure Sec where
  typ : Nat
  off : Nat
  size : Nat
  deriving DecidableEq, Repr

/-- An image: its address and size, the words of its header, and its sections in table order. -/
structure Img where
  base : Nat
  size : Nat
  hdr : List Word
  secs : List Sec
  deriving DecidableEq, Repr

/-- Word `i` of the header. -/
def Img.word (m : Img) (i : Nat) : Word := m.hdr.getD i 0
/-- PROFILE. -/
def Img.profile (m : Img) : Nat := bits (m.word 0) 45 44
/-- FEED. -/
def Img.feed (m : Img) : Bool := bit (m.word 0) 43
/-- TRAIN. -/
def Img.train (m : Img) : Bool := bit (m.word 0) 42
/-- SERVE. -/
def Img.serve (m : Img) : Bool := bit (m.word 0) 41
/-- MULTI. -/
def Img.multi (m : Img) : Bool := bit (m.word 0) 40
/-- DCOL. -/
def Img.dcol (m : Img) : Nat := bits (m.word 0) 38 35
/-- CORES. -/
def Img.cores (m : Img) : List Nat := setBitsOf 144 ((m.word 2).toNat + 2 ^ 72 * (m.word 3).toNat)
/-- MEMBERS. -/
def Img.membersN (m : Img) : Nat := bits (m.word 4) 31 16
/-- The sections of a type. -/
def Img.ofType (m : Img) (t : Nat) : List Sec := m.secs.filter fun x => x.typ == t
/-- The first section of a type; one of no words where there is none. -/
def Img.one (m : Img) (t : Nat) : Sec := ((m.ofType t).head?).getD ⟨t, 0, 0⟩

/-- The words of a section. -/
def State.secWords (s : State) (m : Img) (x : Sec) : List Word := s.mem.readWords (m.base + x.off) (x.size / 8)

/-- The bits of the header words that hold a field (R402). -/
def headerMasks : List Nat :=
  [rangeMask 71 40 + rangeMask 38 35 + rangeMask 7 0, rangeMask 35 0, rangeMask 71 0, rangeMask 71 0, rangeMask 31 0, 0, 0, 0]

/-- A word uses bits outside a mask. -/
def beyond (w : Word) (mask : Nat) : Bool := w.toNat &&& mask != w.toNat

/-- The header follows R402. -/
def Img.headerOk (m : Img) (formats : Nat) : Bool :=
  let f := bits (m.word 0) 53 46
  bits (m.word 0) 71 54 == 0x29C41 && decide (1 ≤ f) && nbit formats (f - 1) &&
    !((List.range 8).any fun i => beyond (m.word i) (headerMasks.getD i 0)) && decide (1 ≤ bits (m.word 0) 7 0) &&
    bits (m.word 1) 35 0 == m.size && decide (1 ≤ m.membersN) && (m.multi || m.membersN == 1) &&
    decide (bits (m.word 4) 15 0 < m.membersN)

/-- The count of sections of a type is one that R404 gives. -/
def Img.countsOk (m : Img) : Bool :=
  let n (t : Nat) : Nat := (m.ofType t).length
  n 1 == 1 && decide (n 4 ≤ 1) && n 5 == 1 && n 6 == 1 && decide (n 7 ≤ 1) && n 8 == b2n m.multi && decide (n 9 ≤ 1)

/-- A section lies where R401 lets it: beside the header and table, in the image, and streams of a feeder at whole groups. -/
def Img.secOk (m : Img) (x : Sec) : Bool :=
  decide (1 ≤ x.typ) && decide (x.typ ≤ 10) && x.off % 64 == 0 && decide (64 + 16 * m.secs.length ≤ x.off) &&
    decide (x.off + x.size ≤ m.size) && (!(x.typ == 2 && m.feed) || x.off % 1024 == 0)

/-- No two sections overlap. -/
def secsApart : List Sec → Bool
  | [] => true
  | x :: xs => !(xs.any fun y => meets x.off x.size y.off y.size) && secsApart xs

/-- The header of a stream section (R404): core, engine, context, instruction count. -/
def streamHead (w : Word) : Nat × Nat × Nat × Nat := (bits w 71 64, bits w 63 61, bits w 60 59, bits w 35 0)

/-- The streams of an image. -/
def State.imgStreams (s : State) (m : Img) : List Stream :=
  (m.ofType 2).map fun x =>
    let h := streamHead ((s.mem.readWords (m.base + x.off) 1).headD 0)
    ⟨h.1, h.2.1, h.2.2.1, m.base + x.off + 8, h.2.2.2⟩

/-- Stream sections name a core of the program, an engine and a context, once each, and hold their instructions; the contexts of an
engine are numbered from 0 (R288, R404). DESIGN CHOICE (log 151): R404 does not say what the bits of a header word are that it does not list. Bits [58:36] of
a stream's must be zero, and those of a DATA section and of a MEMBER word are ignored. -/
def State.streamsOk (s : State) (m : Img) : Bool :=
  let l := s.imgStreams m
  l.all (fun t => m.cores.contains t.core && decide (t.eng < 6) &&
    (t.ctx == 0 || l.any fun u => u.core == t.core && u.eng == t.eng && u.ctx + 1 == t.ctx)) &&
  distinct (l.map fun t => 32 * t.core + 4 * t.eng + t.ctx) &&
  (m.ofType 2).all fun x =>
    let w := (s.mem.readWords (m.base + x.off) 1).headD 0
    decide (8 * (bits w 35 0 + 1) ≤ x.size) && bits w 58 36 == 0

/-- The section table of an image. -/
def State.imgSecs (s : State) (base n : Nat) : List Sec :=
  (List.range n).map fun k =>
    let w := s.mem.readWords (base + 64 + 16 * k) 2
    ⟨bits (w.getD 0 0) 71 66, bits (w.getD 0 0) 35 0, bits (w.getD 1 0) 35 0⟩

/-- The table uses a reserved bit. -/
def State.tableBad (s : State) (base n : Nat) : Bool :=
  (List.range n).any fun k =>
    let w := s.mem.readWords (base + 64 + 16 * k) 2
    beyond (w.getD 0 0) (rangeMask 71 66 + rangeMask 35 0) || beyond (w.getD 1 0) (rangeMask 35 0)

/-- The image at an address, as its header and table give it. -/
def State.imgAt (s : State) (base size : Nat) : Img :=
  let h := s.mem.readWords base 8
  ⟨base, size, h, s.imgSecs base (bits (h.getD 0 0) 7 0)⟩

/-- Step 1 of R407: the image parses. -/
def State.parses (s : State) (m : Img) : Bool :=
  m.base % 1024 == 0 && decide (farBase ≤ m.base) && decide (64 ≤ m.size) && decide (m.base + m.size ≤ farEnd) &&
    !(s.mem.touchesMirror m.base m.size) && m.headerOk (s.val 0x10 4) && !(s.tableBad m.base m.secs.length) &&
    decide (64 + 16 * m.secs.length ≤ m.size) && m.secs.all m.secOk && secsApart m.secs && m.countsOk && s.streamsOk m &&
    (!m.multi || (m.one 8).size == 8 * m.membersN)

/-! ### Digest and signatures (R405, R550) -/

/-- Put a section in image order. -/
def insertSec (x : Sec) : List Sec → List Sec
  | [] => [x]
  | y :: ys => if x.off ≤ y.off then x :: y :: ys else y :: insertSec x ys

/-- The image digest (R405). -/
def State.imgDigest (s : State) (m : Img) : Nat :=
  let l := (m.secs.filter fun x => x.typ != 8 && x.typ != 9).foldr insertSec []
  Config.sha3 (packWords (m.hdr ++ s.mem.readWords (m.base + 64) (2 * m.secs.length) ++ l.flatMap (s.secWords m)))

/-- The digest of the MEMBER contents (R547). -/
def State.memberDigest (s : State) (m : Img) : Nat := if m.multi then Config.sha3 (packWords (s.secWords m (m.one 8))) else 0

/-- Record `k` of the SIG section verifies under an enrolled image key (R550). -/
def State.sigRecord (s : State) (ws : List Word) (digest k : Nat) : Bool :=
  let o := packWords ((ws.drop (1 + 416 * k)).take 416)
  let key := o.take 1312
  let h := Config.sha3 key
  o.length == 3744 && h != 0 && (List.range 4).any (fun n => s.val 0x8020 (3 + n) == h) && (o.drop 3732).all (· == 0) &&
    Config.dsaVerify key digest ((o.drop 1312).take 2420)

/-- Step 2 of R407: the SIG section under 0x8020. -/
def State.signedOk (s : State) (m : Img) (digest : Nat) : Bool :=
  s.val 0x8020 1 == 0 ||
    (let ws := s.secWords m (m.one 9)
     (List.range (bits (ws.headD 0) 7 0)).any (s.sigRecord ws digest))

/-! ### Declarations (R406) -/

/-- A declaration record. -/
structure Decl where
  kind : Nat
  core : Nat
  arg : Nat
  val : Word
  deriving DecidableEq, Repr

/-- The records of a section. -/
def declsOf : List Word → List Decl
  | a :: b :: ws => ⟨bits a 71 68, bits a 67 60, bits a 59 0, b⟩ :: declsOf ws
  | _ => []

/-- The field bits of a word that KIND 0 may write; `none`: the offset may not be named (R406). -/
def declMask (o : Nat) : Option Nat :=
  if o % 8 ≠ 0 then none
  else if 0x200 ≤ o && o ≤ 0x2F8 then some (rangeMask 26 8 + rangeMask 4 0)
  else if 0x800 ≤ o && o < 0x980 then some (rangeMask 35 0)
  else if 0xA00 ≤ o && o ≤ 0xAF8 then some (rangeMask 59 0)
  else if 0x2400 ≤ o && o < 0x2C00 then (if o % 16 = 0 then some (rangeMask 63 49 + rangeMask 35 0) else some (rangeMask 27 25 + rangeMask 23 0))
  else if 0x2C00 ≤ o && o < 0x2E00 then some (rangeMask 7 0)
  else if 0x3000 ≤ o && o < 0x3400 then (if o % 16 = 0 then some (rangeMask 63 48 + rangeMask 21 0) else some (rangeMask 28 0))
  else if 0x3500 ≤ o && o < 0x3580 then some (rangeMask 63 34 + rangeMask 25 0)
  else if 0x3700 ≤ o && o < 0x3720 then some (rangeMask 55 24 + rangeMask 15 0)
  else if o = 0x3780 then some (rangeMask 39 35 + rangeMask 21 0)
  else if 0x4000 ≤ o && o < 0x4400 && o % 32 = 0 then some (rangeMask 71 4)
  else if 0x4800 ≤ o && o < 0x4880 && o % 16 = 0 then some (rangeMask 63 42)
  else none

/-- A record follows R406. -/
def Decl.ok (d : Decl) (cores : List Nat) : Bool :=
  cores.contains d.core &&
    (match d.kind with
     | 0 => decide (d.arg < 65536) && (match declMask d.arg with | some m => !(beyond d.val m) | none => false)
     | 1 => d.arg == 0 && !(beyond d.val (rangeMask 15 0))
     | 2 => decide (d.arg < 2 ^ 18) && d.val == 0 && decide (nbits d.arg 13 6 < 144)
     | 3 => decide (d.arg < 2 ^ 30) && d.val == 0
     | _ => false)

/-- A word of KIND 0 is written (R406). -/
def Core.declWrite (c : Core) (o : Nat) (w : Word) : Core :=
  if o < 0x2400 then c.ctlWrite o w
  else if o < 0x2C00 then
    let g := (o - 0x2400) / 16
    if o % 16 = 0 then { c with train := { c.train with groups := c.train.groups.write .reset g (Group.ofWord w) } }
    else
      { c with train := { c.train with
        pend := c.train.pend.write .reset g ⟨bit w 27, bit w 26, bit w 25, sgn 12 (bits w 23 12), sgn 12 (bits w 11 0)⟩ } }
  else if o < 0x2E00 then
    { c with train := { c.train with binds := c.train.binds.write ⟨false, 0⟩ ((o - 0x2C00) / 8) ⟨bit w 7, bits w 6 0⟩ } }
  else if o < 0x3400 then
    let h := (o - 0x3000) / 16
    let old := c.handles.get .reset h
    let new := if o % 16 = 0 then Handle.ofWords w old.word1 else Handle.ofWords old.word0 w
    { c with handles := c.handles.write .reset h new }
  else if o < 0x3580 then { c with te := { c.te with credits := c.te.credits.write .reset ((o - 0x3500) / 8) (Credit.ofWord w) } }
  else if o < 0x3720 then
    { c with te := { c.te with
      regs := c.te.regs.write .reset ((o - 0x3700) / 8) ⟨bits w 55 40, bits w 39 24, 64 * bits w 15 0, (c.te.reg ((o - 0x3700) / 8)).throttle⟩ } }
  else if o = 0x3780 then
    { c with te := { c.te with lightValid := bit w 39, lightCounter := bits w 38 35, lightBase := bits w 21 0 } }
  else if o < 0x4400 then { c with me := { c.me with ends := c.me.ends.write .reset ((o - 0x4000) / 32) (MEnd.ofWord w) } }
  else { c with me := { c.me with comb := c.me.comb.write .reset ((o - 0x4800) / 16) (CombQ.ofWord w) } }

/-- What a core's tables and units hold at program load before the declarations (R81, R141, R142, R166, R171, R234, R279, R292): tables
that the loader writes are empty, what it leaves undeclared keeps its reset value, and the stream configuration of the MVE has it again (DESIGN CHOICE, log 4); other registers
stand as they are (log 39). -/
def Core.fresh (c : Core) : Core :=
  let c := c.stopWork
  { c with
    engs := .empty
    loopCnt := .empty
    handles := .empty
    coup := { c.coup with rings := .empty, pos := .empty }
    te := { c.te with
      areg := .empty, credits := .empty, msets := .empty, lightValid := false, lightCounter := 0, lightBase := 0
      regs := c.te.regs.mapVals fun _ r => { Regulator.reset with throttle := r.throttle } }
    ope := { c.ope with
      live := .zero, shadow := .zero, descs := .empty, mask := BitVec.allOnes 144, tqFill := 0, tqHead := 0, tqMem := .empty
      tag0 := none, tag1 := none }
    mve := { c.mve with cfg := .reset, acc := .empty, lane := .empty, rqFill := 0, rqHead := 0 }
    ve := { c.ve with cfg := .reset, cache := .empty }
    me := { c.me with ends := .empty, comb := .empty, staging := [] }
    train := { c.train with binds := .empty, groups := .empty, pend := .empty }
    saved := .reset }

/-- A record takes effect on its core: a control word, or a destination of a multicast set. -/
def Core.declare (c : Core) (d : Decl) : Core :=
  if d.kind = 0 then c.declWrite d.arg d.val
  else if d.kind = 2 then
    let n := nbits d.arg 5 0
    { c with te := { c.te with msets := c.te.msets.put n ((c.te.msets.get [] n) ++ [(nbits d.arg 13 6, nbits d.arg 17 14)]) } }
  else c

/-- The banks that an image declares for a core. -/
def declBanks (l : List Decl) (c : Nat) : Nat :=
  l.foldl (fun m d => if d.kind = 1 && d.core = c then m ||| bits d.val 15 0 else m) 0

/-- A core with its declarations, from what it holds before. -/
def Core.declared (c : Core) (l : List Decl) (n : Nat) : Core :=
  (l.filter fun d => d.core == n).foldl Core.declare c.fresh

/-! ### Checks 1 to 3 (R416) -/

/-- The levels of a static walk that are still open at instruction `i`. -/
def openAt (i : Nat) (l : List Nat) : List Nat := l.filter fun e => decide (i < e)

/-- A LOOP breaks R85, at instruction `i` of `n`, with the ends of the open levels, innermost first. -/
def loopBad (multi : Bool) (n i body : Nat) (l : List Nat) : Bool :=
  body == 0 || l.length == 4 ||
    (match l with
     | e :: _ => decide (e < i + 1 + body)
     | [] => decide ((if multi then 64 else 256) < body) || decide (n < i + 1 + body))

/-- The first instruction of a stream that fails a check of 1 to 3; `co` holds the declared rings. A HALT in a loop body is refused too: it is the
illegal loop of R79, which a verified image never raises (R419). DEDUCED (log 68). -/
def badInstr (co : Coupling) (eng : Nat) (multi : Bool) (n : Nat) : List Nat → Nat → List Word → Option Nat
  | _, _, [] => none
  | lv, i, w :: ws =>
    let lv := openAt i lv
    let loop := opOf w == 0x3F
    let body := bits w 41 33
    if illegalOpcode eng w || illegalEncoding eng w || (loop && loopBad multi n i body lv) || (opOf w == 0x3E && !lv.isEmpty) ||
        !(co.waitLegal eng (waitOf w).1 (waitOf w).2) || !(co.sigLegal eng (bits w 52 51) (bits w 50 45)) then some i
    else badInstr co eng multi n (if loop then (i + 1 + body) :: lv else lv) (i + 1) ws

/-! ### What an instruction's word and the declarations decide of checks 15 and 18 (R103, R120, R145, R170, R302, R311, R416) -/

/-- HLOAD and FSEL need a handle in use, of a format of R145 and R170. -/
def Handle.fmtBad (h : Handle) : Bool := !h.valid || !(h.fmt == .n9 || h.fmt == .n9e || h.fmt == .n18)

/-- A tile shape fails R120: M, N and K with the largest M and N. -/
def badShape (top m n K : Nat) : Bool := m == 0 || decide (top < m) || n == 0 || decide (top < n) || K == 0

/-- Check 18: a size, shape or operand that fails its issue check whatever the registers hold. What hangs on an address register, a descriptor or a
pointer hangs on the plan (log 40). -/
def Core.operandBad (c : Core) (eng : Nat) (w : Word) : Bool :=
  let h := c.handle (bits w 44 39)
  match eng, opOf w with
  | 1, 0x01 => bits w 25 0 == 0 || (bit w 34 && decide (c.slotSize (bits w 44 40) < bits w 25 0))
  | 1, 0x02 => bits w 10 0 == 0 || decide (1024 < bits w 10 0)
  | 1, 0x03 => bits w 25 0 == 0
  | 1, 0x04 => bits w 25 0 == 0
  | 1, 0x05 => bits w 31 26 == 0
  | 2, 0x02 => !h.valid || (!h.rvalid && decide (h.size < 8 * (bits w 38 23 + 2)))
  | 2, 0x04 => badShape 144 (bits w 38 31) (bits w 30 23) (bits w 22 7)
  | 2, 0x05 => badShape 72 (bits w 40 34) (bits w 33 27) (bits w 26 11)
  | 2, 0x0A => bits w 22 15 == 0 || decide (144 < bits w 22 15) || h.badTile false (bits w 38 23) (bits w 22 15)
  | 3, 0x01 => bits w 44 43 == 3
  | 3, 0x02 => let g := c.handle (bits w 41 36); g.fmtBad || g.skewed
  | 3, 0x08 => !h.valid || h.skewed
  | 4, 0x08 => bits w 16 15 == 3
  | 4, 0x21 => h.fmtBad
  | _, _ => false

/-- Check 15: an instruction of the ME names an end whose role does not fit it, or sends more than 512 words or than the ring of `ring` words holds. -/
def Core.roleBad (c : Core) (ring : MEnd → Nat) (eng : Nat) (w : Word) : Bool :=
  let e := c.me.endOf (bits w 44 40)
  match eng, opOf w with
  | 5, 0x01 => e.role != 1 || decide (512 < bits w 33 24) || decide (ring e < bits w 33 24 + 1)
  | 5, 0x02 => (setBitsOf 32 (bits w 44 13)).any fun n => (c.me.endOf n).role != 2
  | 5, 0x03 => e.role != 2
  | 5, 0x04 => e.role != 3 || decide (512 < bits w 33 24)
  | _, _ => false

/-- The first instruction of a stream for which a test holds. -/
def firstBad (bad : Word → Bool) (ws : List Word) : Option Nat :=
  let i := ws.findIdx bad
  if i < ws.length then some i else none

/-! ### Token costs (R418, R480) -/

/-- The events that a furlong is charged with, in the order of R480's table. -/
inductive TokenEvent where
  | coreCycle | issue | add9 | add18 | add36 | row | mveAdd | veGroup | veHeavy | combiner | port | near | far | hop
  deriving DecidableEq, Repr

/-- The cost of an event, in fJ. -/
def TokenEvent.cost : TokenEvent → Nat
  | .coreCycle => 45000
  | .issue => 4000
  | .add9 => 125
  | .add18 => 400
  | .add36 => 1600
  | .row => 250000
  | .mveAdd => 350
  | .veGroup => 60000
  | .veHeavy => 110000
  | .combiner => 60000
  | .port => 30000
  | .near => 620000
  | .far => 2600000
  | .hop => 18000

/-- The tokens that the events of a furlong cost, in fJ: a token is one microjoule (R479). -/
def furlongCost (l : List (TokenEvent × Nat)) : Nat := l.foldl (fun n e => n + e.1.cost * e.2) 0

/-- The event of a number, as a plan's replay counts them. -/
def tokenEvent (n : Nat) : TokenEvent :=
  [TokenEvent.coreCycle, .issue, .add9, .add18, .add36, .row, .mveAdd, .veGroup, .veHeavy, .combiner, .port, .near, .far].getD n .hop

/-- A furlong of a plan draws more than its declared tokens (R418). -/
def overDrawn (tokens : Nat) (furlongs : List (List (Nat × Nat))) : Bool :=
  furlongs.any fun l => decide (tokens * 10 ^ 9 < furlongCost (l.map fun e => (tokenEvent e.1, e.2)))

end Sys2Proof.Machine
end

