-- ==== Sys2Proof/Machine/Loader.lean ====
section
/-! DEFINITION. The loader (R234, R253, R264, R279, R288, R295, R300, R314, R315, R334, R348, R370, R407 to R418): LOAD. -/

namespace Sys2Proof.Machine

/-! ### Refusals (R408) -/

/-- VALUE of a refused LOAD: a code and the core it concerns. -/
def loadErr (code core : Nat) : Nat := core * 65536 + code

/-- VALUE for codes 6 and 7. -/
def loadErrAt (code check core eng instr : Nat) : Nat := instr % 2 ^ 37 * 2 ^ 27 + eng * 2 ^ 24 + core * 65536 + check * 256 + code

/-- The first refusal of a list of checks. -/
def firstErrOf : List (Option Nat) → Option Nat
  | [] => none
  | some v :: _ => some v
  | none :: l => firstErrOf l

/-- A check: its refusal where it does not hold. -/
def need (b : Bool) (v : Nat) : Option Nat := if b then none else some v

/-- The first core of a list that fails a test. -/
def failCore (code : Nat) (l : List Nat) (ok : Nat → Bool) : Option Nat := (l.find? fun c => !(ok c)).map (loadErr code)

/-! ### Steps 3 and 4 (R407, R409, R416) -/

/-- Step 3: the part. -/
def State.partErr (s : State) (m : Img) : Option Nat :=
  firstErrOf [need (decide (m.profile < (if s.fuse.a1 then 2 else 3))) (loadErr 3 0xFF),
    need (m.dcol == (if s.fuse.grade132 then s.fuse.dcol else 15)) (loadErr 4 0xFF),
    failCore 4 m.cores s.coreUsable, failCore 5 m.cores fun c => (s.core c).prog.isNone]

/-- Checks 1 to 3 on the streams. -/
def State.encodingErr (s : State) (m : Img) (ds : List Decl) : Option Nat :=
  let ts := s.imgStreams m
  firstErrOf (ts.map fun t =>
    let co := ((s.core t.core).declared ds t.core).coup
    let multi := ts.any fun u => u.core == t.core && u.eng == t.eng && u.ctx != 0
    (badInstr co t.eng multi t.count [] 0 (s.mem.readWords t.base t.count)).map fun i => loadErrAt 6 0 t.core t.eng i)

/-- The static flows of a SLOTS section. -/
def staticFlows (ws : List Word) : List StaticFlow :=
  (Config.slotStatics ws).map fun (r, q, flow, cls, starts, groups, dsts, chip, core, dly) =>
    ⟨⟨r, q⟩, flow, cls, starts, groups, dsts.map fun d => ⟨d.1, d.2⟩, chip, core, dly⟩

/-- What a SLOTS section declares, and the tables the loader builds (R417). -/
def State.slotDecl (s : State) (ws : List Word) : SlotDecl :=
  if ws.isEmpty then .none
  else
    let frame := Config.slotFrame ws
    ⟨frame, staticFlows ws, slotTables s.fuse.dcol frame (staticFlows ws),
     (Config.slotFlows ws).map fun f => ⟨f.1, f.2.1, f.2.2.1, f.2.2.2.1, f.2.2.2.2.1, f.2.2.2.2.2⟩, Config.slotPorts ws,
     Config.pathLatency ws⟩

/-- LAT of a port of a chip of the system (R367): this chip's as its SLOTS section declares it, another chip's an open value. -/
def State.portLats (s : State) (slots : List Word) (chip port : Nat) : Nat :=
  if chip = s.chipId then (((Config.slotPorts slots).find? fun e => e.1 == port).map (·.2)).getD 0 else Config.portLat chip port

/-- The DLY that the route of an end gives it (R293, R296, R352, R367): that of a receive end is its peer's flow to it. -/
def State.endDelay (s : State) (slots : List Word) (c : Nat) (e : MEnd) : Nat :=
  let dcol := s.fuse.dcol
  let peer := if s.isHere e.pchip then s.chipId else e.pchip
  let sched (a x b y : Nat) := scheduledDelay dcol s.sizesUsed (s.portLats slots) (.ofCore x) a b y
  match e.cls with
  | 1 => if e.role = 2 then routeDelay dcol (.ofCore e.pcore) (.ofCore c) else routeDelay dcol (.ofCore c) (.ofCore e.pcore)
  | 2 => if e.role = 2 then sched peer e.pcore s.chipId c else sched s.chipId c peer e.pcore
  | _ => 0

/-- The first core with an end whose DLY is not that of its route. -/
def State.badEnd (s : State) (slots : List Word) (news : List (Nat × Core)) : Option Nat :=
  (news.find? fun n => n.2.me.ends.entries.any fun e => e.2.role != 0 && e.2.dly != s.endDelay slots n.1 e.2).map (·.1)

/-- Checks 16 and 17 (R347, R349, R352, R362, R367): FRAME is 144 to 4,096, no two static flows own one output in one slot, every declared DLY, of a
flow and of an end, is that of its route, and no port direction carries more than 64 Scheduled flits in 144 cycles. The core of a flow is its source's. -/
def State.slotErr (s : State) (slots plan : List Word) (news : List (Nat × Core)) : Option Nat :=
  let frame := Config.slotFrame slots
  let l := staticFlows slots
  let dcol := s.fuse.dcol
  let coreOf (f : StaticFlow) : Nat := if f.src.col = 12 then 0xFF else 12 * f.src.row + f.src.col
  let badDly (f : StaticFlow) : Bool :=
    match f.delay dcol s.sizesUsed (s.portLats slots) s.chipId with
    | some d => f.dly != d
    | none => false
  if !slots.isEmpty && (frame < 144 || 4096 < frame) then some (loadErrAt 7 16 0xFF 0 0)
  else
    match firstMeeting dcol frame [] l, l.find? badDly, s.badEnd slots news with
    | some f, _, _ => some (loadErrAt 7 16 (coreOf f) 0 0)
    | none, some f, _ => some (loadErrAt 7 16 (coreOf f) 0 0)
    | none, none, some c => some (loadErrAt 7 16 c 5 0)
    | none, none, none => if tooDense (Config.planFlits plan) then some (loadErrAt 7 17 0xFF 0 0) else none

/-- The first instruction of the image's streams, in their order, for which a test of its core, engine and word holds. -/
def State.firstInstr (s : State) (m : Img) (check : Nat) (bad : Nat → Nat → Word → Bool) : Option Nat :=
  firstErrOf ((s.imgStreams m).map fun t =>
    (firstBad (bad t.core t.eng) (s.mem.readWords t.base t.count)).map fun i => loadErrAt 7 check t.core t.eng i)

/-- Check 4, as far as the streams decide it: a later step begins and no SE of the program has a STEP (R100). -/
def State.noStep (s : State) (m : Img) : Bool :=
  (Config.planMarks (s.secWords m (m.one 5))).any (fun k => decide (0 < k.2.2.2)) &&
    !((s.imgStreams m).any fun t => t.eng == 0 && (s.mem.readWords t.base t.count).any fun w => engOf w == 0 && opOf w == 0x30)

/-- The receive ring of a send end in words, as the image declares it here, or the open value of another chip's (R300). -/
def State.newRing (s : State) (news : List (Nat × Core)) (e : MEnd) : Nat :=
  if s.isHere e.pchip then
    match news.find? fun n => n.1 == e.pcore with
    | some n => (n.2.handle (n.2.me.endOf e.pend).handle).size / 8
    | none => 0
  else Config.peerRing e.pchip e.pcore e.pend

/-- What the plan's own verdict says, in the fields of R408. -/
def State.planFail (s : State) (m : Img) : Option (Nat × Nat) :=
  (Config.planVerdict (s.mem.readWords m.base (m.size / 8))).map fun v =>
    let check := min 18 (max 4 v.1)
    (check, loadErrAt 7 check (if m.cores.contains v.2.1 then v.2.1 else 0xFF) (min 5 v.2.2.1) v.2.2.2)

/-- Checks 4 to 19: those on the plan, whose layout the spec does not give (log 40), and those that the streams, the declarations and the slots
decide; the lowest check that fails is the one reported. -/
def State.planErr (s : State) (m : Img) (news : List (Nat × Core)) : Option Nat :=
  let core (c : Nat) : Core := ((news.find? fun e => e.1 == c).map (·.2)).getD .reset
  let plan := s.planFail m
  let upTo (a b : Nat) : Option Nat := (plan.filter fun v => decide (a ≤ v.1) && decide (v.1 ≤ b)).map (·.2)
  let image := s.mem.readWords m.base (m.size / 8)
  firstErrOf [if s.noStep m then some (loadErrAt 7 4 0xFF 0 0) else none, upTo 4 14,
    s.firstInstr m 15 (fun c eng w => (core c).roleBad (s.newRing news) eng w), upTo 15 15,
    s.slotErr (s.secWords m (m.one 4)) (s.secWords m (m.one 5)) news,
    s.firstInstr m 18 (fun c eng w => (core c).operandBad eng w), upTo 16 18,
    if overDrawn (Config.powerTokens (s.secWords m (m.one 6))) (Config.planEvents image) then some (loadErrAt 7 19 0xFF 0 0) else none]

/-! ### Step 5: the loader checks -/

/-- A handle follows R234; `banks` are the banks that the image powers. -/
def Handle.loadOk (h : Handle) (banks : Nat) : Bool :=
  !h.valid || (h.base % 8 == 0 && (!h.skewed || h.base % 1152 == 0) && decide (1 ≤ h.size) && decide (h.base + h.size ≤ 4194304) &&
    (h.scale == 0 || h.fmt == .n9 || h.fmt == .n9e) &&
    (List.range 16).all fun b => nbit banks b || decide (h.base + h.size ≤ 0x40000 * b) || decide (0x40000 * (b + 1) ≤ h.base))

/-- A ring follows R49 and R264. -/
def Core.ringLoadOk (c : Core) (r : Nat) : Bool :=
  let x := c.coup.ring r
  let hs := c.handles.entries.filter fun h => h.2.rvalid && h.2.ring == r
  !x.en || (!x.refused && (match hs with
    | [h] =>
      let n := x.last + 1
      h.2.size % (8 * n) == 0 && (!h.2.skewed || h.2.size / n % 1152 == 0)
    | _ => false))

/-- The core follows R234, R264, R279 and R315. -/
def Core.loadOk (c : Core) (banks : Nat) : Bool :=
  c.handles.entries.all (fun h => h.2.loadOk banks) && (List.range 32).all c.ringLoadOk &&
    c.te.regs.entries.all (fun r => decide (1024 ≤ r.2.depth)) &&
    decide ((c.me.comb.entries.foldl (fun n q => if q.2.valid then n + q.2.count * 8 * (q.2.size + 1) else n) 0) ≤ 65536)

/-- RATE of classes 0, 1 and 3 of a core. -/
def Core.rates (c : Core) : Nat := (c.te.reg 0).rate + (c.te.reg 1).rate + (c.te.reg 3).rate

/-- The sum of RATE over every loaded program and the new cores is within the far bandwidth (R279). -/
def State.ratesOk (s : State) (news : List (Nat × Core)) : Bool :=
  let old := s.cores.entries.foldl (fun n e => if e.2.prog.isSome then n + e.2.rates else n) 0
  decide (old + news.foldl (fun n e => n + e.2.rates) 0 ≤ 49152)

/-- The combining sends of the new cores that feed a queue, by source index. -/
def combSources (chip : Nat) (news : List (Nat × Core)) (core q : Nat) : List Nat :=
  news.flatMap fun e => e.2.me.ends.entries.filterMap fun n =>
    if n.2.role = 3 && (n.2.pchip = 0xFFFF || n.2.pchip = chip) && n.2.pcore = core && n.2.pend = q then some n.2.handle else none

/-- Each source of a queue has exactly one end (R314); of a program on several chips, at most one stands here. -/
def State.combOk (s : State) (multi : Bool) (news : List (Nat × Core)) : Bool :=
  news.all fun e => e.2.me.comb.entries.all fun q =>
    let l := combSources s.chipId news e.1 q.1
    !q.2.valid || (distinct l && l.all (fun k => decide (k ≤ q.2.count)) && (multi || l.length == q.2.count + 1))

/-- The batch declaration of an image (R334, R406): the slots and base of its first record, its handles, its commit handle. -/
def batchOf (ds : List Decl) : Option Batch :=
  let l := ds.filter fun d => d.kind == 3
  match l, l.find? fun d => nbit d.arg 23 with
  | d :: _, some k =>
    some ⟨nbits d.arg 16 11, nbits d.arg 10 0, l.map fun e => (e.core, nbits e.arg 22 17), k.core, nbits k.arg 29 24⟩
  | _, _ => none

/-- The records of a batch agree and name one commit core (R334). -/
def batchAgrees (ds : List Decl) (b : Batch) : Bool :=
  let l := ds.filter fun d => d.kind == 3
  l.all (fun d => nbits d.arg 10 0 == b.slots && nbits d.arg 16 11 == b.base) && (l.filter fun d => nbit d.arg 23).length == 1 &&
    distinct (l.map (·.core))

/-- A core of a list. -/
def coreIn (news : List (Nat × Core)) (c : Nat) : Core := ((news.find? fun e => e.1 == c).map (·.2)).getD .reset

/-- A batch follows R334. -/
def State.batchOk (s : State) (news : List (Nat × Core)) (b : Batch) : Bool :=
  let h (c n : Nat) : Handle := (coreIn news c).handles.get .reset n
  let ch := h b.ccore b.chandle
  decide (1 ≤ b.slots) && decide (b.slots ≤ 1024) &&
    b.handles.all (fun e => let x := h e.1 e.2; x.valid && !x.skewed && x.prot == 1 && decide (64 * (b.slots + 1) ≤ x.size)) &&
    ch.valid && !ch.skewed && ch.prot == 0 && decide (16 * b.slots ≤ ch.size) &&
    s.progs.entries.all fun p => match p.2.batch with | some o => o.base != b.base | none => true

/-- A serving image declares a batch that follows R334, and no other image declares one. -/
def State.serveOk (s : State) (m : Img) (ds : List Decl) (news : List (Nat × Core)) : Bool :=
  match batchOf ds with
  | some b => m.serve && batchAgrees ds b && s.batchOk news b
  | none => !m.serve && !(ds.any fun d => d.kind == 3)

/-- A declared address register of the core lies in near memory (R101). -/
def Core.nearAreg (c : Core) : Bool := c.te.areg.entries.any fun a => isNear (localOf a.2)

/-- The stacks whose near path a program uses (R253): those of its plan and of the near ranges among its step inputs, and those over the cores that
have an MSTREAM in their streams, or a COPY beside a declared address register that lies in near memory. DEDUCED (log 131): no instruction holds the
addresses of a COPY, so where no declaration holds them either, the plan has to name its stack. -/
def State.stacksUsed (s : State) (m : Img) (news : List (Nat × Core)) : List Nat :=
  let plan := s.secWords m (m.one 5)
  let has (t : Stream) (op : Nat) : Bool := (s.mem.readWords t.base t.count).any fun w => engOf w == t.eng && opOf w == op
  let streams := (s.imgStreams m).filter fun t =>
    (t.eng == 3 && has t 4) || (t.eng == 1 && has t 1 && news.any fun n => n.1 == t.core && n.2.nearAreg)
  dedup (Config.planStacks plan ++ ((Config.planInputs plan).filter fun r => isNear (localOf r.1)).map (fun r => nearStack (localOf r.1)) ++
    streams.map fun t => stackOf t.core)

/-- The stacks whose near path the program uses, each with its present cores all in the program (R253). -/
def State.nearOk (s : State) (m : Img) (ks : List Nat) : Bool :=
  ks.all fun k => (List.range 144).all fun c => stackOf c != k || s.fuse.absent.contains c || m.cores.contains c

/-- While 0x6000 selects Locked, no engine has several contexts and no class 3 end has RES (R288, R295). -/
def State.lockedOk (s : State) (m : Img) (news : List (Nat × Core)) : Bool :=
  s.val 0x6000 1 != 0 ||
    ((s.imgStreams m).all (fun t => t.ctx == 0) &&
      news.all fun e => e.2.me.ends.entries.all fun n => !(n.2.role != 0 && n.2.cls == 3 && n.2.res))

/-- A DATA section lies in powered scratchpad of the program's cores or in one near stack (log 41). -/
def State.dataOk (s : State) (m : Img) (ds : List Decl) (x : Sec) : Bool :=
  let a := bits ((s.secWords m x).headD 0) 43 0
  let n := x.size - 8
  match region s.fuse.absent a with
  | .scratch c off =>
    m.cores.contains c && decide (off + n ≤ scratchSize) &&
      (banksOfWords (wordsOf off n)).all fun b => nbit (declBanks ds c) b || nbit (s.core c).scr.banksOn b
  | .near k => decide (a + n ≤ nearBase + stackSize * (k + 1)) && decide (a + n ≤ tableBase) && !(s.mem.touchesMirror a n)
  | _ => false

/-- The members' chip IDs. -/
def State.imgMembers (s : State) (m : Img) : List Nat :=
  if m.multi then (s.secWords m (m.one 8)).map fun w => bits w 15 0 else [s.chipId]

/-- R348, R370, and the members of the group (R407 code 9). -/
def State.fabricOk (s : State) (m : Img) (slots : List Word) : Bool :=
  let outs := (s.slotDecl slots).outputs
  (!m.multi || (s.imgMembers m).all s.chipInSystem) &&
    s.progs.entries.all (fun p => !(p.2.slots.outputs.any outs.contains)) &&
    (Config.slotPorts slots).all fun p => (s.jport p.1).st == 3 && (s.jport p.1).lat == p.2

/-- Tokens of a budget in W: a furlong lasts 2.048 µs at the nominal clock, and a token is one microjoule (R418, R479). -/
def budgetTokens (w : Nat) : Nat := w * 2048 / 1000

/-- The allowance (R479). -/
def allowance : Nat := 900

/-- The declared use of every loaded program. -/
def State.declaredSum (s : State) : Nat := s.progs.entries.foldl (fun n p => n + p.2.tokens) 0

/-- Step 5. -/
def State.declErr (s : State) (m : Img) (ds : List Decl) (news : List (Nat × Core)) : Option Nat :=
  let slots := s.secWords m (m.one 4)
  firstErrOf [(ds.find? fun d => !(d.ok m.cores)).map (fun d => loadErr 8 d.core),
    failCore 8 m.cores (fun c => (coreIn news c).loadOk (declBanks ds c)),
    need (s.nearOk m (s.stacksUsed m news)) (loadErr 8 0xFF), need (s.ratesOk news) (loadErr 8 0xFF),
    need (s.lockedOk m news) (loadErr 8 0xFF), need (s.combOk m.multi news) (loadErr 8 0xFF),
    need (s.serveOk m ds news) (loadErr 8 0xFF), need ((m.ofType 3).all (s.dataOk m ds)) (loadErr 8 0xFF),
    need (s.fabricOk m slots) (loadErr 9 0xFF),
    need (decide (s.declaredSum + Config.powerTokens (s.secWords m (m.one 6)) + allowance ≤ budgetTokens (s.val 0x2100 1)))
      (loadErr 10 0xFF)]

/-! ### Step 6: relocation (R412, R413) -/

/-- A relocation record. -/
structure Reloc where
  kind : Nat
  member : Bool
  tsec : Nat
  pos : Nat
  toff : Nat
  ssec : Nat
  mbr : Nat
  add : Nat
  bad : Bool
  deriving DecidableEq, Repr

/-- The records of a RELOC section. -/
def relocsOf : List Word → List Reloc
  | a :: b :: ws =>
    ⟨bits a 71 68, bit a 67, bits a 59 52, bits a 43 36, bits a 35 0, bits b 71 64, bits b 63 48, bits b 43 0,
     beyond a (rangeMask 71 67 + rangeMask 59 52 + rangeMask 43 0) || beyond b (rangeMask 71 48 + rangeMask 43 0)⟩ :: relocsOf ws
  | _ => []

/-- The bits of the target word that a record patches. -/
def Reloc.span (r : Reloc) : Nat × Nat :=
  match r.kind with
  | 0 => (39, 0)
  | 1 => (31, 0)
  | 2 => (59, 0)
  | _ => (r.pos + 15, r.pos)

/-- The global value V (R412). -/
def Reloc.value (r : Reloc) (m : Img) (members : List Nat) : Nat :=
  if r.member then members.getD r.mbr 0 * 2 ^ 44 + r.add
  else 0xFFFF * 2 ^ 44 + (m.base + (m.secs.getD r.ssec ⟨0, 0, 0⟩).off + r.add) % 2 ^ 44

/-- What is written into the field (R413). -/
def Reloc.field (r : Reloc) (v : Nat) : Nat :=
  match r.kind with
  | 0 => nbits v 39 0
  | 1 => nbits v 71 40
  | 2 => nbits v 59 0
  | _ => nbits v 59 44

/-- The address of the target word. -/
def Reloc.target (r : Reloc) (m : Img) : Nat := m.base + (m.secs.getD r.tsec ⟨0, 0, 0⟩).off + r.toff

/-- The target of a record is of its KIND, and its base exists (R412, R413). -/
def State.relocOk (s : State) (m : Img) (r : Reloc) : Bool :=
  let t := m.secs.getD r.tsec ⟨0, 0, 0⟩
  let w := (s.mem.readWords (r.target m) 1).headD 0
  let rec0 := (s.mem.readWords (r.target m - 8) 1).headD 0
  let h := streamHead ((s.mem.readWords (m.base + t.off) 1).headD 0)
  !r.bad && r.toff % 8 == 0 && decide (r.toff + 8 ≤ t.size) && decide (8 ≤ r.toff) &&
    (match r.kind with
     | 0 => t.typ == 2 && h.2.1 == 0 && decide (r.toff / 8 ≤ h.2.2.2) && engOf w == 0 && opOf w == 0x14
     | 1 => t.typ == 2 && h.2.1 == 0 && decide (r.toff / 8 ≤ h.2.2.2) && engOf w == 0 && opOf w == 0x15
     | 2 => t.typ == 1 && r.toff % 16 == 8 && bits rec0 71 68 == 0 && decide (0xA00 ≤ bits rec0 59 0) && decide (bits rec0 59 0 ≤ 0xAF8)
     | 3 => t.typ == 1 && r.toff % 16 == 8 && decide (r.pos + 15 ≤ 71)
     | _ => false) &&
    (if r.member then decide (r.mbr < m.membersN) && m.multi
     else
       let b := m.secs.getD r.ssec ⟨0, 0, 0⟩
       b.typ == 10 || b.typ == 2)

/-- Two records patch one field. -/
def Reloc.clashes (a b : Reloc) : Bool :=
  a.tsec == b.tsec && a.toff == b.toff && decide (a.span.2 ≤ b.span.1) && decide (b.span.2 ≤ a.span.1)

/-- No two records of a list patch one field. -/
def relocsApart : List Reloc → Bool
  | [] => true
  | r :: rs => !(rs.any r.clashes) && relocsApart rs

/-- The result of a record with a section as its base lies in usable far memory (log 42). -/
def Reloc.inFar (r : Reloc) (m : Img) : Bool := r.member || isFar (localOf (r.value m []))

/-- Step 6: refusals of records, of a seventeenth program (log 43), and of results. -/
def State.relocErr (s : State) (m : Img) (rs : List Reloc) : Option Nat :=
  firstErrOf [need (rs.all (s.relocOk m) && relocsApart rs) (loadErr 8 0xFF),
    need (decide (s.progs.entries.length < 16) && rs.all (fun r => r.inFar m)) (loadErr 11 0xFF)]

/-- A record is applied to the image. -/
def applyReloc (m : Img) (members : List Nat) (mem : Mem) (r : Reloc) : Mem :=
  let a := r.target m
  let w := (mem.readWords a 1).headD 0
  mem.writeWords a [BitVec.ofNat 72 (setBits w.toNat r.span.1 r.span.2 (r.field (r.value m members)))]

/-! ### Step 7 (R69, R241, R300, R404) -/

/-- The receive ring of an end in words: its handle's here, an open value for an end of another chip. -/
def State.ringWords (s : State) (e : MEnd) : Nat :=
  if s.isHere e.pchip then
    let k := s.core e.pcore
    (k.handles.get .reset ((k.me.ends.get .reset e.pend).handle)).size / 8
  else Config.peerRing e.pchip e.pcore e.pend

/-- The ends of a core take their capacity and their first credit (R300, R314). -/
def State.openEnds (s : State) (c : Nat) : State :=
  let k := s.core c
  let f (_ : Nat) (e : MEnd) : MEnd :=
    match e.role with
    | 1 => let r := s.ringWords e; { e with cap := r, credit := r }
    | 2 => { e with cap := (k.handles.get .reset e.handle).size / 8 }
    | 3 => { e with credit := 1 }
    | _ => e
  s.setCore c { k with me := { k.me with ends := k.me.ends.mapVals f } }

/-- The delay pads of a stepping and profile (R69). -/
def pads (a1 : Bool) (profile : Nat) : Nat × Nat :=
  match a1, profile with
  | true, 0 => (2, 2)
  | true, _ => (0, 0)
  | false, 0 => (8, 5)
  | false, 1 => (6, 3)
  | false, _ => (0, 0)

/-- The engines of a core: Idle with a stream, else Off (R50, R87). -/
def engsOf (ts : List Stream) (c : Nat) : SMap Engine :=
  let mine := ts.filter fun t => t.core == c
  mine.foldl (fun m t =>
    let n := (mine.filter fun u => u.eng == t.eng).length
    let g := m.get .reset t.eng
    m.put t.eng { g with st := .idle, nctx := max 1 n, ctxs := g.ctxs.put t.ctx { Ctx.reset with total := t.count } }) .empty

/-- The declared banks of a core are powered and awake; a bank that was already on keeps its words (R241). -/
def Scratch.powerBanks (t : Scratch) (mask : Nat) : Scratch :=
  (setBitsOf 16 mask).foldl (fun t b =>
    if nbit t.banksOn b then { t with banksDraining := setBit t.banksDraining b false } else t.bankAwake b)
    { t with banksReq := t.banksReq ||| mask }

/-- A core with its declarations, pads and engines; the formats of bound handles are those of their groups (R204). -/
def State.loadedCore (s : State) (m : Img) (ds : List Decl) (ts : List Stream) (n c : Nat) : Core :=
  let k := ((s.core c).declared ds c).followGroups
  { k with
    prog := some n, profile := m.profile, opePad := (pads s.fuse.a1 m.profile).1, vePad := (pads s.fuse.a1 m.profile).2
    feeder := m.feed, engs := engsOf ts c
    scr := k.scr.powerBanks (declBanks ds c) }

/-- A DATA section is copied (R404): a poisoned block of it lands poisoned (R249). -/
def State.copyData (m : Img) (s : State) (x : Sec) : State :=
  let a := bits ((s.secWords m x).headD 0) 43 0
  let body := s.mem.read (m.base + x.off + 8) (x.size - 8)
  match region s.fuse.absent a with
  | .scratch c off =>
    let k := s.core c
    s.setCore c { k with scr := k.scr.writeNts off body }
  | .near _ => { s with mem := s.mem.write a body }
  | _ => s

/-- The lowest program number that is free (R407). -/
def State.freeNum (s : State) : Nat := ((List.range 17).find? fun k => (s.prog (k + 1)).isNone).getD 0 + 1

/-- The cores of an image with their declarations. -/
def State.newCores (s : State) (m : Img) (ds : List Decl) : List (Nat × Core) := m.cores.map fun c => (c, (s.core c).declared ds c)

/-- The record of a loaded program. -/
def State.newProg (s : State) (m : Img) (digest : Nat) (ds : List Decl) (ts : List Stream) : Prog :=
  let plan := s.secWords m (m.one 5)
  { digest := digest, memDigest := s.memberDigest m, image := m.base, size := m.size, profile := m.profile, feeder := m.feed
    train := m.train, multi := m.multi, cores := m.cores, members := s.imgMembers m, streams := ts, marks := Config.planMarks plan
    slots := s.slotDecl (s.secWords m (m.one 4)), inputs := Config.planInputs plan, nearStacks := s.stacksUsed m (s.newCores m ds)
    tokens := Config.powerTokens (s.secWords m (m.one 6)), batch := batchOf ds, starting := false, running := false, stopping := false
    start := none, stop := none, base := 0, t0 := 0, lat := s.latch, seed := 0, firstStep := 0, step := 0, stepNo := 0, committed := none
    stalls := [], sched := 0, stallCycles := 0, stepStall := 0, lost := 0, lastStep := 0, errRemounts := 0, wideRemounts := 0
    stepErr := 0, stepWide := 0, trigs := [], remounting := false, widenReq := [], overLogged := [], signals := [], batches := 0
    slotSess := [], ready := [], readySent := false, release := none, doneSent := false, done := [], stepped := [], ended := [], merged := [], results := []
    replayAt := none, errElse := false }

/-- Steps 6 and 7: the image is relocated, its declarations written, banks powered, data copied and pads set. -/
def State.install (s : State) (m : Img) (digest n : Nat) (rs : List Reloc) : State :=
  let s := { s with mem := rs.foldl (applyReloc m (s.imgMembers m)) s.mem }
  let ds := declsOf (s.secWords m (m.one 1))
  let ts := s.imgStreams m
  let s := m.cores.foldl (fun s c => s.setCore c (s.loadedCore m ds ts n c)) s
  let s := m.cores.foldl State.openEnds s
  let s := (m.ofType 3).foldl (State.copyData m) s
  (s.setVal 0x6020 3 0).setProg n (s.newProg m digest ds ts)

/-- The image with its relocation records applied, those that R412 and R413 allow: what a patched field is to hold is known to the checks on the
declarations, which Rinuf gives as zero there (DEDUCED, log 149). -/
def State.relocated (s : State) (m : Img) : State :=
  { s with mem := ((relocsOf (s.secWords m (m.one 7))).filter (s.relocOk m)).foldl (applyReloc m (s.imgMembers m)) s.mem }

/-- The refusal of an image, with the step that makes it (R407, R408). -/
def State.loadVerdict (s : State) (m : Img) : Option Nat :=
  if !(s.parses m) then some (loadErr 1 0xFF)
  else
    let digest := s.imgDigest m
    let ds := declsOf (s.secWords m (m.one 1))
    let news := s.newCores m (declsOf ((s.relocated m).secWords m (m.one 1)))
    if !(s.signedOk m digest) then some (loadErr 2 0xFF)
    else
      firstErrOf [s.partErr m, s.encodingErr m ds, s.planErr m news, s.declErr m ds news,
        s.relocErr m (relocsOf (s.secWords m (m.one 7)))]

/-- The image overlaps the sealed segment of a loaded program (R92). -/
def State.overSeal (s : State) (m : Img) : Bool := s.seals.any fun r => meets m.base m.size r.1 r.2

/-- LOAD (R92, R407, R408, R485): the loader reads the image as R257 states. -/
def State.loadEntry (s : State) (e : Entry) : State :=
  let s := (s.latentRead (bits (e.word 1) 43 0) (bits (e.word 2) 35 0)).1
  let m := s.imgAt (bits (e.word 1) 43 0) (bits (e.word 2) 35 0)
  if !s.zeroed then s.answer e 9 none
  else if s.overSeal m then s.answer e 1 none
  else
    match s.loadVerdict m with
    | some v => (if v % 256 = 2 then s.bump 0x8020 0x20 1 else s).answer e 9 (some v)
    | none =>
      let n := s.freeNum
      (s.install m (s.imgDigest m) n (relocsOf (s.secWords m (m.one 7)))).answer e 0 (some n)

/-- LOAD (R407). -/
def execLoad (queue : Nat) (s : State) : Result := onEntry s queue (isOp 1) State.loadEntry

end Sys2Proof.Machine
end

