-- ==== Sys2Proof/Machine/Fabric.lean ====
section
/-! DEFINITION. The Jizia ports (R353 to R373, R377, R378): what they receive, bring-up and retraining, time alignment, Scheduled delivery, and
the commits that change a port or the chip's place. -/

namespace Sys2Proof.Machine

/-! ### Transit and delivery (R271, R282, R355, R360, R365, R366) -/

/-- The part's ports exchange flits. -/
def State.linked (s : State) : Bool := s.powered && !s.frozen

/-- An Open flit is refused at this chip, or discarded by it (R371): the response to a read lands poisoned, and a message or contribution of this chip raises the
address error of its program. What stores and loads of this chip meet comes with their own landings. -/
def State.refuseFlit (s : State) (q : Queued) : State :=
  let s := s.owe q.owes
  match q.by_ with
  | some (c, eng, ctx, pc) => s.effects c [.err .addressError eng ctx pc 0]
  | none =>
    let (src, n, chip) := Config.readRequest q.flit.payload
    if Flit.typ q.flit = 1 && !(s.isHere chip) then
      s.launch (flitOf 2 false chip (bits q.flit.header 25 0) (refusedData src (min n 64)))
    else s

/-- Every Open flit that a port holds or has sent without an acknowledgement is discarded (R359, R371, R372). -/
def State.refuseAll (s : State) (p : Nat) : State :=
  let j := s.jport p
  let l := (j.replay ++ j.openQ).filter fun q => !(Flit.sched q.flit) && Flit.typ q.flit != 5
  l.foldl State.refuseFlit (s.setJport p { j with replay := [], openQ := [] })

/-- A flit in transit goes on through another port, and holds its receive buffer until it has left (R361, R365, R366); an Open one is refused at a port that
does not take it (R371). -/
def State.forward (s : State) (from_ : Nat) (f : Sys2Proof.Flit) : State :=
  match s.routePort (Flit.dchip f) with
  | none => s
  | some q =>
    let g := if Flit.typ f = 5 || Flit.sched f then f
      else { f with header := BitVec.ofNat 72 (setBit f.header.toNat 45 (s.nextVc from_ q f)) }
    let e : Queued := ⟨g, if Flit.typ f = 5 then none else some (from_, Flit.credit f), none⟩
    if Flit.typ f = 5 || Flit.sched f || (s.jport q).takes false then s.enqueue q e else s.refuseFlit e

/-- A write from another chip: the scratchpad of a core, far memory, or a core's credit grants, but for a grant of an attempt that has failed (R102,
R246, R247); others are refused. How a part knows such a grant is open (log 132). -/
def State.openWrite (s : State) (f : Sys2Proof.Flit) : State :=
  let stale := match region s.fuse.absent (Flit.addr f) with | .ctl .. => Config.staleGrant f.header | _ => false
  if stale then s else (s.landStore (Flit.addr f) (some (Config.sentCycle 0 f.header.toNat)) .none (Flit.data f)).1

/-- A read request is served and its response sent (R271); a far block that fails its checks is read again, counted, and delivered poisoned. The response's
address field is the request's (log 49). -/
def State.openRead (s : State) (f : Sys2Proof.Flit) : State :=
  let (src, n, chip) := Config.readRequest f.payload
  let l := localOf src
  let g := if isFar l then s.latentFault l (min n 64) else .none
  let v := s.serveHere l (min n 64) (some (Config.sentCycle 0 f.header.toNat)) g
  (v.s.clearLatent l (min n 64)).launch (flitOf 2 false chip (bits f.header 25 0) v.data)

/-- A read response lands in its decoupling queue (R271, R355), unless it answers a load that a remount has discarded (R275). The source refused the read, or its
block failed, where every nonet is poisoned; how a part knows a discarded load's response is open (log 132). -/
def State.openResponse (s : State) (f : Sys2Proof.Flit) : State :=
  let a := Flit.addr f
  let core := nbits a 25 18
  let q := nbits a 17 14
  let req := nbits a 9 0 / 64
  let d := (s.core core).te.dq.get .reset q
  if !(Config.staleResponse f.header) && decide (core < 144) && d.st == 1 && decide (req < d.sent) && !(d.landed.contains req) &&
      (Flit.data f).length == min 64 (d.size - 64 * req) then
    s.outside core fun _ x => x.queueLand q req (Flit.data f) ((Flit.data f).all (·.p))
  else s

/-- The word at which the next record of an end stands, records that are landing included (R302). -/
def Core.ringPos (c : Core) (endn : Nat) : Nat :=
  let e := c.me.endOf endn
  let l := c.pend.filterMap fun p => match p.wr with | .record n r => if n = endn then some r else none | _ => none
  ({ e with recs := e.recs ++ l } : MEnd).nextPos

/-- A released flit lands in a receive ring as a static write in cycle `t`, what belongs to the next group of 144 nonets a cycle later; with the last of its record the record is receivable (R304, R360). -/
def Cx.landFlit (x : Cx) (env : Env) (w : Flow) (t word : Nat) (part data : List PNt) : Cx :=
  let pos := x.c.ringPos w.endn
  let off := w.base + 8 * pos + 8 * word
  let r := recOf pos (BitVec.ofNat 72 (ntVal (part.take 8))) (anyPoison (part.take 8))
  match x.c.writeRefused env.step off data.length with
  | some er => x.emit [.err er 5 0 0 w.endn]
  | none =>
    let i : Iss := ⟨t, x.c.nextTid, 5, 0, 0⟩
    let done := decide ((if r.pad then 8 else 8 * r.words) ≤ part.length)
    let n := 144 - 8 * word % 144
    let rest := data.drop n
    let u := if rest.isEmpty then t else t + 1
    let l := (⟨t, i, .scr off (data.take n)⟩ : Pend) :: ((if rest.isEmpty then [] else [⟨u, i, .scr (off + n) rest⟩]) ++
      (if done then [⟨u, i, .record w.endn r⟩] else []))
    { x with c := ({ x.c with nextTid := x.c.nextTid + 1 } : Core).pendAll l }

/-- A station releases a flit in cycle `count` of its program (R360): it lands in a receive ring, or joins the contribution to a combining queue,
whose source index is the flow's base (log 129);
this arrives in the cycle of R304's receivability (R314). -/
def State.releaseFlit (s : State) (n : Nat) (w : Flow) (word count : Nat) (data : List PNt) : State :=
  let mine (p : FlowPart) : Bool := p.prog == n && p.flow == w.flow
  let old := match s.parts.find? mine with | some p => if word = 0 then [] else p.data | none => []
  let part := old ++ data
  let s := { s with parts := (s.parts.filter fun p => !(mine p)) ++ [(⟨n, w.flow, part⟩ : FlowPart)] }
  let t := count + Config.stationLead w.core
  s.outside w.core fun env (x : Cx) =>
    let t := max t x.c.now
    if w.toRing then x.landFlit env w t word part data
    else
      let n := 8 * ((x.c.me.comb.get .reset w.endn).size + 1)
      if n ≤ part.length then x.arrive w.endn w.base (t - 8 * word / 144 + cdiv (n + 8) 144) part else x

/-- A Scheduled flit would take an entry of its station's timing buffer, and the buffer is full (R360, R361). -/
def State.stationFull (s : State) (p : Nat) (f : Sys2Proof.Flit) : Bool :=
  match s.flowOf p (Flit.flow f) with
  | none => false
  | some (_, pr, _) =>
    !(pr.stalls.contains (.link p (Flit.flow f) (Flit.wordNo f))) && decide (0 < s.flitAhead pr f) &&
      !(s.stationRoom p)

/-- A Scheduled flit reaches its station (R360): it waits for DUE, or for room in its port; one whose DUE has come is released at once, and the link stall in
which it was missing ends in the next cycle (R424). -/
def State.station (s : State) (p : Nat) (f : Sys2Proof.Flit) : State :=
  match s.flowOf p (Flit.flow f) with
  | none => s
  | some (n, pr, w) =>
    let stall : Stall := .link p (Flit.flow f) (Flit.wordNo f)
    let count := s.progCycle pr
    if s.stationFull p f then { s with inbox := s.inbox ++ [(p, f)] }
    else if pr.stalls.contains stall then
      (((s.addCycles 1).updProg n fun k => k.unstall stall)).releaseFlit n w (Flit.wordNo f) count (Flit.data f)
    else if 0 < s.flitAhead pr f then s.enterTiming p n pr f
    else s.releaseFlit n w (Flit.wordNo f) count (Flit.data f)

/-- A flit is delivered here. Messages, contributions and control flits take effect by their own events (log 45). -/
def State.deliverFlit (s : State) (p : Nat) (f : Sys2Proof.Flit) : State :=
  if Flit.sched f then s.station p f
  else
    match Flit.typ f with
    | 0 => s.openWrite f
    | 1 => s.openRead f
    | 2 => s.openResponse f
    | _ => s

/-- A flit is for this chip. -/
def State.forHere (s : State) (f : Sys2Proof.Flit) : Bool := s.isHere (Flit.dchip f) || (s.routePort (Flit.dchip f)).isNone

/-- A NAK leaves a port for its peer (R357, R358). -/
def State.sendNak (s : State) (p : Nat) : State :=
  (ctlFlits 1 (s.val (0x1200 + p) 5) [(((s.jport p).recvSeq + 4095) % 4096 : Nat)]).foldl (fun s f => s.sendBare p f) s

/-- A flit that the link layer accepts: its ACK and CRD count, and it goes on or is delivered. Its own credit goes back, unless it waits in its
port for a full station, or is in transit and has yet to leave (R361). -/
def State.acceptFlit (s : State) (p : Nat) (f : Sys2Proof.Flit) : State :=
  let j := (s.jport p).acked (Flit.ack f) |>.credited (bits f.trailer 35 34) (bits f.trailer 39 36)
  if !(Flit.sequenced f) then (s.setJport p j).pumpAll p
  else
    let full := Flit.sched f && s.forHere f && s.stationFull p f
    let j := { j with
      recvSeq := (j.recvSeq + 1) % 4096, discarding := false
      owed := if Flit.typ f != 5 && s.forHere f && !full then j.owed ++ [Flit.credit f] else j.owed }
    let s := (s.setJport p j).pumpIdle p
    if s.forHere f then s.deliverFlit p f else s.forward p f

/-- FLIT_RECEIVE (R358): a flit with a bad CRC or out of order is discarded, with every later one until the re-send, and a NAK is sent. -/
def execFlitReceive (port : Nat) (flit : Sys2Proof.Flit) (s : State) : Result :=
  if 12 ≤ port then .fault .noSuchPort
  else
    let j := s.jport port
    if !s.linked || !j.carries then .next s
    else if !(Flit.crcOk flit) then
      .next (((s.bump (0x1200 + port) 9 1).setJport port { j with discarding := true }).sendNak port)
    else if Flit.sequenced flit && Flit.seq flit != j.recvSeq then
      if j.discarding then .next s else .next ((s.setJport port { j with discarding := true }).sendNak port)
    else .next (s.acceptFlit port flit)

/-! ### Retraining (R359) -/

/-- A port retrains, first with the stored settings, and keeps what it has sent. -/
def State.retrainPort (s : State) (p : Nat) : State :=
  let j := s.jport p
  (((s.loseTime p).setJport p { j with st := 1, retrain := true, nakRun := 0, discarding := false }).bump (0x1200 + p) 0xC 1).logChip 0x0105 0xFF p

/-- NAK (R358): the flits after the one named are sent again, in order; 16 for one SEQ retrain the port (R359). -/
def execNak (port seq : Nat) (s : State) : Result :=
  if 12 ≤ port then .fault .noSuchPort
  else
    let j := s.jport port
    if !s.linked || !j.carries then .next s
    else
      let run := if j.nakRun != 0 && j.nakSeq == seq then j.nakRun + 1 else 1
      let j := { j.acked seq with nakSeq := seq, nakRun := run }
      let s := s.setJport port j
      if 16 ≤ run then .next (s.retrainPort port)
      else .next { s.bump (0x1200 + port) 8 j.replay.length with out := s.out ++ j.replay.map fun f => .flit port f.flit }

/-- ACK_TIMEOUT (R359): flits are outstanding and ACK has made no progress for 100 µs. -/
def execAckTimeout (port : Nat) (s : State) : Result :=
  if 12 ≤ port then .fault .noSuchPort
  else
    let j := s.jport port
    if s.linked && j.carries && !j.replay.isEmpty then .next (s.retrainPort port) else .next s

/-- LANE_LOCK_LOSS (R359). -/
def execLaneLockLoss (port lane : Nat) (s : State) : Result :=
  if 12 ≤ port then .fault .noSuchPort
  else if 4 ≤ lane then .fault .noSuchUnit
  else
    let j := s.jport port
    if s.powered && (j.carries || j.st == 2) then
      .next ((s.setJport port { j with lanes := setBit j.lanes lane false }).retrainPort port)
    else .next s

/-- The state in which calibration leaves a port, by its measured and declared latency (R370). -/
def calState (picos lat : Nat) : Nat := if cdiv (2 * picos) 1000 + 8 ≤ lat then 3 else 4

/-- INIT or CAL goes to the peer of a port (R357, R369, R370). -/
def State.sendBring (s : State) (p kind : Nat) (info : List Int) : State :=
  (ctlFlits kind (s.val (0x1200 + p) 5) info).foldl (fun s f => s.sendBare p f) s

/-- What INIT carries: the chip ID, the port and the Jizia versions (R369). -/
def State.initInfo (s : State) (p : Nat) : List Int := [(s.chipId : Int), (p : Int), (s.val 0x10 2 : Int)]

/-- TIME goes to the chips whose way to the root is this chip, over ports that are Up (R373). DESIGN CHOICE (log 133): the spec does not say when TIME is sent; this
chip sends it when a port comes Up and when it has been aligned itself. -/
def State.sendTime (s : State) : State :=
  if s.val 0x1010 9 = 1 || s.val 0x1010 0xA = 2 then
    (List.range 12).foldl (fun s p =>
      if (s.jport p).st = 3 && chipPort s.sizesUsed (s.peerOf p).1 s.timeRoot == some (portOpposite p) then
        let j := s.jport p
        (s.setJport p { j with ctlQ := j.ctlQ ++ ctlFlits 4 (s.val (0x1200 + p) 5) [(s.time : Int)] }).pumpAll p
      else s) s
  else s

/-- Calibration has measured a one-way latency at a port: it goes Up, or Open-only, which is logged (R370, log 47); a declared latency that has changed takes
effect (R378). A port that is disabled goes on draining (R372). -/
def State.portCalibrated (s : State) (port picos : Nat) : State :=
  let lat := s.val (0x1200 + port) 3
  let st := if s.val (0x1200 + port) 1 = 0 then 6 else calState picos lat
  let s := (s.setVal (0x1200 + port) 4 (picos % 2 ^ 32)).setJport port { s.jport port with st := st, retrain := false, lanes := 15, lat := lat }
  (if st = 4 then s.logChip 0x0105 0xFF port else if st = 3 then s.sendTime else s).pumpAll port

/-- RETRAIN_COMPLETE (R359): training, INIT and CAL have been done again, after the fast retrain, or after the full one that followed it and counts by itself
(R378); the replay buffer stands. -/
def execRetrainComplete (port : Nat) (news : RetrainNews) (s : State) : Result :=
  if 12 ≤ port then .fault .noSuchPort
  else
    let j := s.jport port
    if s.linked && j.retrain && (j.st == 1 || j.st == 2) then
      let s := if news.fast then s else s.bump (0x1200 + port) 0xC 1
      .next (((s.sendBring port 2 (s.initInfo port)).sendBring port 3 []).portCalibrated port news.picos)
    else .next s

/-- A loaded program has Scheduled flows over a port (R371, R372). -/
def State.scheduledOver (s : State) (p : Nat) : Bool := s.progs.entries.any fun e => e.2.slots.lat.any fun l => l.1 == p

/-- A port goes Down, or to Disabled where it is disabled: what it held is discarded (R359, R371, R372). In a freeze the fact is kept, for the thaw (R560). -/
def State.portDown (s : State) (p : Nat) : State :=
  let lat := (s.jport p).lat
  let sched := s.scheduledOver p
  let s := ((s.loseTime p).setJport p { s.jport p with st := 0 }).refuseAll p
  let s := s.setJport p { JPort.reset with st := if s.val (0x1200 + p) 1 = 0 then 7 else 0, retrain := s.frozen, lat := lat }
  if sched then s.escalateChip 0x0403 0xFF p else s

/-- PORT_DOWN_TIMEOUT (R359, R371): the fast retrain and the full one that followed it have failed (R378). -/
def execPortDownTimeout (port : Nat) (s : State) : Result :=
  if 12 ≤ port then .fault .noSuchPort
  else
    let j := s.jport port
    if s.powered && j.retrain && (j.st == 1 || j.st == 2) then .next ((s.bump (0x1200 + port) 0xC 1).portDown port) else .next s

/-! ### Bring-up (R368 to R370) -/

/-- LINK_TRAINED (R368): a port in Training, or Down where it may be brought up, goes to Calibrating. -/
def execLinkTrained (port : Nat) (s : State) : Result :=
  if 12 ≤ port then .fault .noSuchPort
  else
    let j := s.jport port
    if s.linked && s.portMay port && (j.st == 1 || (j.st == 0 && s.val (0x1200 + port) 1 == 1)) then
      .next (((s.setVal (0x1200 + port) 7 0).setJport port { j with st := 2, lanes := 15 }).sendBring port 2 (s.initInfo port))
    else .next s

/-- INIT (R369): versions, and whether the peer follows R354. With no common version the port goes Down, which is logged as a Jizia retrain (log 47); a port that is
Miswired carries nothing, and refuses what waits in it (R371). -/
def execInit (port peerChip peerPort versions : Nat) (s : State) : Result :=
  if 12 ≤ port then .fault .noSuchPort
  else
    let j := s.jport port
    if !s.linked || j.st ≠ 2 then .next s
    else
      let s := (s.setVal (0x1200 + port) 5 (peerChip % 65536)).setVal (0x1200 + port) 6 (peerPort % 256)
      if !(nbit (versions &&& s.val 0x10 2) 0) then
        .next (((s.setVal (0x1200 + port) 7 0).logChip 0x0105 0xFF port).portDown port)
      else if (peerChip, peerPort) ≠ s.peerOf port then .next ((s.setJport port { j with st := 5 }).refuseAll port)
      else .next ((s.setVal (0x1200 + port) 7 1).sendBring port 3 [])

/-- CAL (R370). -/
def execCal (port picos : Nat) (s : State) : Result :=
  if 12 ≤ port then .fault .noSuchPort
  else
    let j := s.jport port
    if !s.linked || j.st ≠ 2 || s.val (0x1200 + port) 7 = 0 then .next s
    else .next (s.portCalibrated port picos)

/-! ### Time, beacons and Scheduled delivery (R319, R360, R361, R373) -/

/-- TIME (R373) from the port on the way to the root, whose time counter is `ahead` ns ahead: the first steps the counter, every later one is what it slews toward
(R432). -/
def execTime (port : Nat) (ahead : Int) (aligned : Bool) (s : State) : Result :=
  if 12 ≤ port then .fault .noSuchPort
  else if !s.linked || (s.jport port).st ≠ 3 || s.rootPort ≠ some port then .next s
  else
    let t := if s.val 0x1010 0xA = 0 then { s with time := (((s.time : Int) + ahead) % 2 ^ 64).toNat, slew := 0, slewNs := 0 } else { s with slew := ahead }
    let t := t.setVal 0x1010 0xA (if aligned then 2 else max 1 (s.val 0x1010 0xA))
    .next (if aligned then t.sendTime else t)

/-- BEACON_FLIT (R319, R357): beacons of an ME on another chip reach the wait-graph unit. -/
def execBeaconFlit (chip core : Nat) (waits : List (Nat × Nat)) (s : State) : Result :=
  if !s.live || s.isHere chip then .next s
  else if waits.isEmpty then .next { s with beacons := s.beacons.filter fun b => b.node != s.meNode chip core }
  else .next { s with beacons := putBeacon s.beacons ⟨s.meNode chip core, waits.map fun w => s.meNode w.1 w.2⟩ }

/-- FLIT_DUE (R360): the station releases the flit into its static slots, from its timing buffer or from the port where it waits for room in it; where it is missing,
the program is held in a link stall. -/
def execFlitDue (prog station flow word : Nat) (s : State) : Result :=
  if 12 ≤ station then .fault .noSuchUnit
  else
    match s.prog prog with
    | none => .next s
    | some p =>
      match p.slots.flows.find? fun x => x.station == station && x.flow == flow with
      | none => .next s
      | some w =>
        if !s.live || !p.issues then .next s
        else
          match takeFirst (fun t => t.station == station && t.prog == prog && t.flow == flow && t.word == word) s.timing with
          | some (t, rest) =>
            .next ((({ s with timing := rest }.addCycles (t.due - s.progCycle p)).releaseFlit prog w word t.due t.data).letIn station)
          | none =>
            match takeFirst (fun e => e.1 == station && Flit.flow e.2 == flow && Flit.wordNo e.2 == word) s.inbox with
            | some ((_, f), rest) =>
              .next (({ s with inbox := rest }.owe (some (station, 2))).releaseFlit prog w word (s.progCycle p + (s.flitAhead p f).toNat) (Flit.data f))
            | none => .next (s.updProg prog fun p => p.stall (.link station flow word))

/-! ### Commits (R372, R377) -/

/-- A port may be disabled (R372, R519). -/
def State.jportOffOk (s : State) (p : Nat) : Bool := !(s.scheduledOver p)

/-- A commit of a port's enable is applied. -/
def State.applyJport (s : State) (p : Nat) (on : Bool) : State :=
  let j := s.jport p
  let s := s.setVal (0x1200 + p) 1 (b2n on)
  if on then
    if j.st = 7 then s.restartJport p else s
  else if j.st = 3 || j.st = 4 then (s.loseTime p).setJport p { j with st := 6 }
  else if j.st = 6 || j.st = 7 || j.retrain then s
  else s.setJport p { JPort.reset with st := 7, lat := j.lat }

/-- JIZIA_PORT_ENABLE (R372). -/
def execJiziaPortEnable (port : Nat) (on : Bool) (s : State) : Result :=
  if 12 ≤ port then .fault .noSuchPort
  else if s.commits && (on || s.jportOffOk port) then .next (s.applyJport port on)
  else .next s

/-- JIZIA_PORT_DRAIN_TIMEOUT (R372): what remains is discarded under R371; a port enabled again meanwhile comes up anew. -/
def execJiziaPortDrainTimeout (port : Nat) (s : State) : Result :=
  if 12 ≤ port then .fault .noSuchPort
  else if s.linked && ((s.jport port).st == 6 || ((s.jport port).retrain && s.val (0x1200 + port) 1 == 0)) then
    .next ((s.refuseAll port).restartJport port)
  else .next s

/-- The chip's place can be committed (R364, R377). -/
def placeOk (chip dims : Nat) (sizes : List Nat) : Bool :=
  decide (chip ≤ 65535) && decide (dims ≤ 6) && sizes.length == 6 && sizes.all (fun n => decide (1 ≤ n) && decide (n ≤ 255)) &&
    decide ((sizes.take dims).foldl (· * ·) 1 ≤ 65535)

/-- A new place: every port that is not Down or Disabled retrains; one that may come up does (R368, R377). -/
def State.replace (s : State) : State :=
  (List.range 12).foldl (fun s p =>
    let j := s.jport p
    if j.st = 7 then s
    else if !(s.portMay p) then s.setJport p JPort.reset
    else if j.st = 0 then s.restartJport p
    else s.retrainPort p) s

/-- CHIP_ID (R377). -/
def execChipId (chip dims : Nat) (sizes : List Nat) (root : Bool) (s : State) : Result :=
  if !s.commits || !s.progs.entries.isEmpty || !(placeOk chip dims sizes) then .next s
  else
    let s := ((s.setVal 0x1010 1 chip).setVal 0x1010 2 dims).setVal 0x1010 9 (b2n root)
    let s := sizes.zipIdx.foldl (fun s e => s.setVal 0x1010 (3 + e.2) e.1) s
    .next (if s.powered then s.replace else s)

end Sys2Proof.Machine
end

