-- ==== Sys2Proof/Machine/Doorbells.lean ====
section
/-! DEFINITION. Host ports, queues and doorbells (R380 to R394, R400, R519): what frames of a host port and the commits of 0x110p and
0x1180 do, and what the transport of a QP does. -/

namespace Sys2Proof.Machine

/-! ### Frames (R381, R382, R482, R556) -/

/-- A frame of a QP reaches its RoCEv2 engine: its port is Up and its queue Ready (R385, R400, R556). A QP whose queue is not Ready takes
nothing (log 51). -/
def State.qpRuns (s : State) (q : Nat) : Bool := s.hostRuns (s.portOf q) && (s.hport (s.portOf q)).st == 2 && (s.queue q).st == 1

/-- A verb of a QP is taken. In a freeze none is, on port 0 either, for what it acts on stands still (log 51). -/
def State.qpTakes (s : State) (q : Nat) : Bool := s.qpRuns q && !s.frozen

/-- Frames are received on a port (R381). -/
def State.rxFrames (s : State) (p n : Nat) : State := s.bump (0x1100 + p) 0xA n

/-- Frames of a QP that takes none of them: a port that is Up or Draining has received them, and one that is Up has dropped those of a queue that is not
Ready, which is a header error of RoCE (R381, R400; PRESUMED, log 51). -/
def State.passFrames (s : State) (q n : Nat) : State :=
  let p := s.portOf q
  let h := s.hport p
  if s.hostRuns p && (h.st == 2 || h.st == 3) then
    if h.st == 2 && (s.queue q).st != 1 then (s.rxFrames p n).bump (0x1100 + p) 0xC n else s.rxFrames p n
  else s

/-- A CE mark on a packet of a QP is answered with a CNP, where its port reacts to marks (R381, R382). -/
def State.ceMark (s : State) (q : Nat) (ce : Bool) : State :=
  if ce && s.val (0x1100 + s.portOf q) 9 == 1 then (s.sendHost q 16 (.cnp q)).bump (0x1100 + s.portOf q) 0xF 1 else s

/-- A NAK leaves, and the QP enters the error state, and with it its queue (R385; log 50). NAK kinds: 1 Invalid Request, 2 Remote Access
Error, 3 Remote Operational Error. -/
def State.nakQp (s : State) (q kind : Nat) : State := (s.sendHost q 16 (.nak q kind)).queueError q

/-! ### Doorbells (R389, R390) -/

/-- A doorbell of kind 1 is in order: INDEX does not go back, and is at most a ring ahead of the entries begun. -/
def HQueue.tailOk (h : HQueue) (entries idx : Nat) : Bool :=
  let ahead := (idx + 2 ^ 32 - h.begun) % 2 ^ 32
  decide ((h.tail + 2 ^ 32 - h.begun) % 2 ^ 32 ≤ ahead) && decide (ahead ≤ entries)

/-- A doorbell of kind 2 is in order: INDEX does not go back, and is at most a ring ahead of the completions written. -/
def HQueue.headOk (h : HQueue) (entries idx : Nat) : Bool :=
  let ahead := (idx + 2 ^ 32 - h.cprod) % 2 ^ 32
  decide ((idx + 2 ^ 32 - h.ccons) % 2 ^ 32 < 2 ^ 31) && (decide (ahead ≤ entries) || decide (2 ^ 31 ≤ ahead))

/-- A SEND reaches a queue (R382, R389, R483). The reserved octets are not looked at (log 52). -/
def State.doorbell (s : State) (q : Nat) (b : HostSend) : State :=
  if !(s.qpTakes q) then s.passFrames q 1
  else
    let s := (s.rxFrames (s.portOf q) 1).ceMark q b.ce
    let octets := b.octets
    let h := s.queue q
    let kind := ofOctets (octets.take 2)
    let idx := ofOctets ((octets.drop 4).take 4)
    if octets.length ≠ 16 then s.queueError q
    else if kind = 1 && h.tailOk (s.valAt 0x1180 9 q) idx then
      let s := (s.setQueue q { h with tail := idx }).sendHost q 16 (.ack q)
      if s.pst = 1 || s.pst = 2 then s.beginExit else s
    else if kind = 2 && h.headOk (s.valAt 0x1180 0xC q) idx then (s.setQueue q { h with ccons := idx }).sendHost q 16 (.ack q)
    else s.queueError q

/-- SUBMISSION_TAIL (R389). -/
def execSubmissionTail (queue : Nat) (octets : HostSend) (s : State) : Result :=
  if 4096 ≤ queue then .fault .noSuchQueue else .next (s.doorbell queue octets)

/-- COMPLETION_HEAD (R389). -/
def execCompletionHead (queue : Nat) (octets : HostSend) (s : State) : Result :=
  if 4096 ≤ queue then .fault .noSuchQueue else .next (s.doorbell queue octets)

/-- COMPLETION_BACKLOG (R391, R394): the oldest waiting completion of a queue is written. -/
def execCompletionBacklog (queue : Nat) (s : State) : Result :=
  if 4096 ≤ queue then .fault .noSuchQueue
  else
    let h := s.queue queue
    match h.waiting with
    | [] => .next s
    | c :: rest =>
      if s.ringRoom queue then .next ((s.setQueue queue { h with waiting := rest }).writeCompl queue c) else .next s

/-! ### The transport of a QP (R382, R385) -/

/-- The RDMA operations of sessions that a queue's QP carries: their session numbers. -/
def State.transfersOf (s : State) (q : Nat) : List (Nat × SCmd) := s.moving.entries.filter fun e => e.2.queue == q

/-- A transfer of a KV copy fails: its entry completes with XFER; an EVICT leaves its session Resident (R329). -/
def State.failTransfer (s : State) (i : Nat) (c : SCmd) : State :=
  let s := s.endMove i
  let s := if c.cmd = 4 then s.setSess i { s.sess i with drain := false } else s
  s.answerCmd c 6

/-- Operations of a queue that the host has not acknowledged. -/
def State.outstanding (s : State) (q : Nat) : Bool := (s.queue q).unacked != 0 || !(s.transfersOf q).isEmpty || (s.frz == 3 && s.val 0x9000 0xA == q)

/-- The QP of a queue enters the error state: its operations fail, and the queue enters Error (R385). A read-out over it ends (R559). -/
def State.qpError (s : State) (q : Nat) : State :=
  let l := s.transfersOf q
  let h := s.queue q
  let s := ({ s with held := s.held.filter fun e => e.1 != q }.setQueue q { h with unacked := 0, retries := 0 }).queueError q
  let s := l.foldl (fun s e => s.failTransfer e.1 e.2) s
  if s.frz = 3 && s.val 0x9000 0xA = q then { s with frz := 4 } else s

/-- The operations of a queue that the host has not answered go on: its queue is Ready, or its port drains (R400), and the port's engine runs (R556). -/
def State.opsLive (s : State) (q : Nat) : Bool := s.hostRuns (s.portOf q) && ((s.queue q).st == 1 || (s.hport (s.portOf q)).st == 3)

/-- LOCAL_ACK_TIMEOUT (R382): the operation is sent again, at most 7 times; then the QP is in error. -/
def execLocalAckTimeout (queue : Nat) (s : State) : Result :=
  if 4096 ≤ queue then .fault .noSuchQueue
  else
    let h := s.queue queue
    if !(s.opsLive queue) || !(s.outstanding queue) then .next s
    else if h.retries < 7 then
      let t := s.setQueue queue { h with retries := h.retries + 1 }
      .next (if s.sends queue then t.bump (0x1100 + s.portOf queue) 0xB 1 else t)
    else .next (s.qpError queue)

/-- HOST_ACK_OR_NAK (R385): an ACK ends the oldest operation that has no answer of its own; a NAK puts the QP in error (log 53). -/
def execHostAckOrNak (queue : Nat) (nak : Bool) (s : State) : Result :=
  if 4096 ≤ queue then .fault .noSuchQueue
  else
    let h := s.queue queue
    if !(s.opsLive queue) || !((s.hport (s.portOf queue)).st == 2 || (s.hport (s.portOf queue)).st == 3) || !(s.outstanding queue) then .next (s.passFrames queue 1)
    else
      let s := s.rxFrames (s.portOf queue) 1
      if nak then .next (s.qpError queue)
      else .next (s.setQueue queue { h with unacked := h.unacked - 1, retries := 0 })

/-- ATOMIC_REQUEST (R382): an Invalid Request NAK. -/
def execAtomicRequest (queue : Nat) (s : State) : Result :=
  if 4096 ≤ queue then .fault .noSuchQueue
  else if s.qpRuns queue then .next ((s.rxFrames (s.portOf queue) 1).nakQp queue 1)
  else .next (s.passFrames queue 1)

/-- CNP (R382): the QP's send rate is lowered, where its port reacts (0x110p.09). -/
def execCnp (queue : Nat) (s : State) : Result :=
  if 4096 ≤ queue then .fault .noSuchQueue
  else
    let p := s.portOf queue
    if !(s.qpRuns queue) then .next (s.passFrames queue 1)
    else
      let s := s.rxFrames p 1
      let h := s.queue queue
      if s.val (0x1100 + p) 9 = 1 then .next (s.setQueue queue { h with slow := h.slow + 1 }) else .next s

/-- A PFC frame pauses a priority for so many quanta of 512 bit times, 2.56 ns at 200 Gbit/s; 0 ends its pause (R380; PRESUMED of IEEE 802.1Qbb,
log 150). -/
def HPort.pause (h : HPort) (b : PfcNews) (now : Nat) : HPort :=
  let l := h.paused.filter fun e => e.1 != b.prio
  { h with paused := if b.quanta = 0 then l else l ++ [(b.prio, now + cdiv (b.quanta * 64) 25)] }

/-- PFC_FRAME (R380): it pauses a priority that is lossless, or ends its pause, and is counted. -/
def execPfcFrame (port : Nat) (b : PfcNews) (s : State) : Result :=
  if 4 ≤ port then .fault .noSuchPort
  else
    let h := s.hport port
    if !(s.hostRuns port) || !(h.st == 2 || h.st == 3) then .next s
    else
      let s := (s.rxFrames port 1).bump (0x1100 + port) 0xE 1
      if b.prio < 8 && nbit (s.val (0x1100 + port) 8) b.prio then .next (s.setHport port (h.pause b s.time)).freeHeld
      else .next s

/-! ### Host ports (R381, R400, R484) -/

/-- HOST_LINK_LOSS (R484): a link-retrain reset of the port, which loses the port's own state. -/
def execHostLinkLoss (port : Nat) (s : State) : Result :=
  if 4 ≤ port then .fault .noSuchPort
  else if s.powered && (s.hport port).st == 2 then .next (((s.setHport port ⟨1, []⟩).dropHeld port).logChip 0x0106 0xFF port)
  else .next s

/-- HOST_PORT_TRAINED (R381). -/
def execHostPortTrained (port : Nat) (s : State) : Result :=
  if 4 ≤ port then .fault .noSuchPort
  else if s.powered && (s.hport port).st == 1 then .next (s.setHport port { s.hport port with st := 2 }).freeHeld
  else .next s

/-- The queues that are enabled (R384). -/
def State.enabledQueues (s : State) : List Nat :=
  s.dict.entries.filterMap fun e => if e.1 / 2 ^ 16 == 0x118002 && e.2 != 0 then some (e.1 % 2 ^ 16) else none

/-- The queues whose port field names a port enter Error (R400). -/
def State.portQueuesError (s : State) (p : Nat) : State :=
  (s.enabledQueues.filter fun q => s.portOf q == p).foldl State.queueError s

/-- A commit of a host port's enable is applied (R400). New work is refused at once (R452). -/
def State.applyHport (s : State) (p : Nat) (on : Bool) : State :=
  let h := s.hport p
  let s := s.setVal (0x1100 + p) 1 (b2n on)
  if on then (if h.st = 4 then s.setHport p ⟨1, []⟩ else s)
  else if h.st = 3 || h.st = 4 then s
  else (s.setHport p { h with st := 3 }).portQueuesError p

/-- HOST_PORT_ENABLE (R400). -/
def execHostPortEnable (port : Nat) (on : Bool) (s : State) : Result :=
  if 4 ≤ port then .fault .noSuchPort
  else if s.commits then .next (s.applyHport port on) else .next s

/-- HOST_PORT_DRAIN_TIMEOUT (R400): what remains is discarded, and the port is Disabled; one enabled again meanwhile trains. -/
def execHostPortDrainTimeout (port : Nat) (s : State) : Result :=
  if 4 ≤ port then .fault .noSuchPort
  else if s.powered && !s.frozen && (s.hport port).st == 3 then
    let l := s.moving.entries.filter fun e => s.portOf e.2.queue == port
    let s := (l.foldl (fun s e => s.failTransfer e.1 e.2) s).portQueuesError port
    .next ((s.setHport port ⟨if s.val (0x1100 + port) 1 = 0 then 4 else 1, []⟩).dropHeld port)
  else .next s

/-! ### Host queues (R384, R385, R519) -/

/-- The submission ring of a queue: its address and size. -/
def State.ringOf (s : State) (q : Nat) : Nat × Nat := (s.valAt 0x1180 8 q, 64 * s.valAt 0x1180 9 q)

/-- An enabled queue is configured as R384 asks. -/
def State.queueOk (s : State) (q : Nat) : Bool :=
  let (a, n) := s.ringOf q
  a % 1024 == 0 && decide (farBase ≤ a) && decide (a + n ≤ farEnd) && !(s.mem.touchesMirror a n) &&
    !(s.seals.any fun r => meets a n r.1 r.2) &&
    !(s.enabledQueues.any fun k => k != q && meets a n (s.ringOf k).1 (s.ringOf k).2) &&
    (s.valAt 0x1180 6 q &&& s.val 0x10 3) != 0

/-- The highest version of a bitmap: bit 0 is version 1. -/
def topVersion (m : Nat) : Nat := (List.range 16).foldl (fun v k => if nbit m k then k + 1 else v) 0

/-- A queue becomes Ready with its indices at 0; completions that wait still wait (R384, R385). -/
def State.readyQueue (s : State) (q : Nat) : State :=
  let h := s.queue q
  (s.setQueue q { HQueue.reset with st := 1, waiting := h.waiting, overrun := h.overrun, active := h.active }).setAt 0x1180 7 q
    (topVersion (s.valAt 0x1180 6 q &&& s.val 0x10 3))

/-- The entries of a queue that are not begun end with DISCARDED (R519). -/
def State.discardNew (s : State) (q : Nat) : State :=
  let h := s.queue q
  let n := (h.tail + 2 ^ 32 - h.begun) % 2 ^ 32
  let tags := (List.range (min n 4096)).map fun k => (s.ringEntry q ((h.begun + k) % 2 ^ 32)).tag
  tags.foldl (fun s t => s.post q ⟨t, 7, 0, Config.noResult t, 0, 0, 0⟩) (s.setQueue q { h with begun := h.tail })

/-- A commit of a queue's enable is applied. -/
def State.applyQueue (s : State) (q : Nat) (on : Bool) : State :=
  let s := s.setAt 0x1180 2 q (b2n on)
  let h := s.queue q
  if on then (if h.st = 0 || h.st = 2 then s.readyQueue q else s)
  else if h.st = 0 || h.st = 3 then s
  else (s.setQueue q { h with st := 3 }).discardNew q

/-- QUEUE_ENABLE (R384, R519). -/
def execQueueEnable (queue : Nat) (on : Bool) (s : State) : Result :=
  if 4096 ≤ queue then .fault .noSuchQueue
  else if s.commits && (!on || s.queueOk queue) then .next (s.applyQueue queue on)
  else .next s

/-- QUEUE_DRAIN_TIMEOUT (R519): begun entries end with DISCARDED, a session command without effect, and the queue is Off; one enabled again meanwhile is Ready. -/
def execQueueDrainTimeout (queue : Nat) (s : State) : Result :=
  if 4096 ≤ queue then .fault .noSuchQueue
  else
    let h := s.queue queue
    if !s.powered || s.frozen || h.st ≠ 3 then .next s
    else
      let s := (s.cmds.filter (·.queue == queue) ++ (s.transfersOf queue).map (·.2)).foldl State.cancelCmd s
      let s := ((s.queue queue).active.map (·.2)).foldl (fun s t => s.complete queue t 7 none) s
      if s.valAt 0x1180 2 queue = 1 then .next (s.readyQueue queue)
      else .next ((s.setQueue queue { s.queue queue with st := 0 }).setAt 0x1180 7 queue 0)

end Sys2Proof.Machine
end

