-- ==== Sys2Proof/Machine/Windows.lean ====
section
/-! DEFINITION. Memory windows and the host's RDMA operations through them (R327, R395 to R399). -/

namespace Sys2Proof.Machine

/-! ### Creation and destruction (R395, R396, R399) -/

/-- Window `i`. -/
def State.win (s : State) (i : Nat) : Win := s.wins.get .reset i

/-- Replace a window. -/
def State.setWin (s : State) (i : Nat) (w : Win) : State := { s with wins := s.wins.put i w }

/-- A range of a core's scratchpad meets the receive ring of a session end (R298). -/
def Core.sessionRing (c : Core) (off n : Nat) : Bool :=
  c.me.ends.entries.any fun e => e.2.role == 2 && e.2.session && meets off n (c.handle e.2.handle).base (c.handle e.2.handle).size

/-- The end of the views of sessions and adapters in the session windows (R327). -/
def viewEnd : Nat := 0x4040000

/-- Where R396 lets a window lie. A window over the views cannot be written (R327). -/
def State.windowFits (s : State) (base n : Nat) (wr : Bool) : Bool :=
  !(s.sealed base n) && !(s.mem.touchesMirror base n) && !(meets base n tableBase (64 * 1048576)) &&
  (match region s.fuse.absent base with
   | .scratch c off => decide (off + n ≤ scratchSize) && !((s.core c).sessionRing off n)
   | .near k => decide (base + n ≤ nearBase + stackSize * (k + 1))
   | .far => decide (base + n ≤ farEnd)
   | .session off => decide (off + n ≤ viewEnd) && !wr
   | _ => false)

/-- The window that an entry describes. -/
def Entry.win (e : Entry) (tag : Nat) : Win :=
  ⟨1, bits (e.word 1) 70 69, bit (e.word 1) 68, bit (e.word 1) 67, bit (e.word 1) 66, bits (e.word 1) 63 52, bits (e.word 2) 43 0,
   bits (e.word 3) 35 0, tag, false, none⟩

/-- A window can be created (R395, R396, R485): not over one in use (log 54). -/
def State.windowOk (s : State) (i : Nat) (w : Win) : Bool :=
  s.zeroed && (s.win i).st == 0 && decide (w.conv ≤ 2) && w.base % 8 == 0 && w.size % 8 == 0 && decide (1 ≤ w.size) &&
    s.windowFits w.base w.size w.wr

/-- The tag of a new window: it differs from the one before (R395). -/
def State.newTag (s : State) (old : Nat) : Nat := (old + 1 + Config.tagStep s.serial % (2 ^ 22 - 1)) % 2 ^ 22

/-- WINDOW without DESTROY (R395). -/
def State.makeWindow (s : State) (e : Entry) : State :=
  let i := bits (e.word 1) 9 0
  let w := e.win (s.newTag (s.win i).tag)
  if s.valAt 0x1180 5 e.q = 0 || !(s.windowOk i w) then s.answer e 9 none
  else ({ s with serial := s.serial + 1 }.setWin i w).answer e 0 (some (i + 1024 * w.tag))

/-- WINDOW with DESTROY (R399): the entry waits until the window is Off. -/
def State.breakWindow (s : State) (e : Entry) : State :=
  let i := bits (e.word 1) 9 0
  let w := s.win i
  if s.valAt 0x1180 5 e.q = 0 || w.st ≠ 1 then s.answer e 9 none
  else s.setWin i { w with st := 2, destroy := some ⟨e.q, e.tag⟩ }

/-- WINDOW (R395). -/
def execWindow (queue : Nat) (s : State) : Result := onEntry s queue (fun e => e.op == 7 && !(bit (e.word 1) 71)) State.makeWindow

/-- DESTROY (R399). -/
def execDestroy (queue : Nat) (s : State) : Result := onEntry s queue (fun e => e.op == 7 && bit (e.word 1) 71) State.breakWindow

/-- WINDOW_DRAIN_TIMEOUT (R399): the window is Off, LOST is cleared, and DESTROY completes. -/
def execWindowDrainTimeout (window : Nat) (s : State) : Result :=
  if 1024 ≤ window then .fault .noSuchUnit
  else
    let w := s.win window
    if s.powered && !s.frozen && w.st == 2 then .next ((s.setWin window { Win.reset with tag := w.tag }).endTicket w.destroy 0 none) else .next s

/-! ### Accesses (R395 to R397) -/

/-- A packet of a queue may use the window that its rkey names. -/
def Win.allows (w : Win) (q rkey : Nat) (write : Bool) : Bool :=
  w.st == 1 && rkey / 1024 == w.tag && (if write then w.wr else w.rd) && (w.anyq || w.queue == q)

/-- An access lies in its window and follows the rule of its CONV. -/
def Win.covers (w : Win) (va len : Nat) : Bool :=
  convAligned w.conv va len && decide (convNts w.conv va + convNts w.conv len ≤ w.size)

/-- The octets that end at a nonet boundary: 9, 2 or 1. -/
def convUnit (conv : Nat) : Nat :=
  match conv with
  | 0 => 9
  | 1 => 2
  | _ => 1

/-- A message's octets, packet by packet: each piece ends at the last nonet boundary of its packet. `pos` octets came before, and `k`
packets. -/
def packetsOf (unit mtu : Nat) : Nat → Nat → Nat → List (BitVec 8) → List (List (BitVec 8))
  | 0, _, _, l => [l]
  | f + 1, k, pos, l =>
    if l.isEmpty then []
    else
      let nxt := alignDown ((k + 1) * mtu) unit
      l.take (nxt - pos) :: packetsOf unit mtu f (k + 1) nxt (l.drop (nxt - pos))

/-- Nonets of a window are written at a local address; `none`: the write is refused (R396). Near memory is reached in a rest window (R253),
and a write of part of a far group reads the group, whose checks may fail (R257). -/
def State.hostWrite (s : State) (fault : ReadFault) (a : Nat) (data : List PNt) : Option State :=
  if s.sealed a data.length || s.mem.touchesMirror a data.length then none
  else
    match region s.fuse.absent a with
    | .scratch c off => match s.bgWrite c off (some (Config.sentCycle 1 a)) data with | (t, none) => some t | (_, some _) => none
    | .near k => let t := s.passToRest k; some { t with mem := t.mem.write a data }
    | .far => let t := s.partWrite a data.length fault; some { t with mem := t.mem.write a data }
    | _ => none

/-- Packets are written in order until one is refused (R397). -/
def State.writePackets (s : State) (conv : Nat) (fault : ReadFault) : Nat → List (List (BitVec 8)) → State × Bool
  | _, [] => (s, true)
  | a, p :: ps =>
    match ofHost conv p with
    | none => (s, false)
    | some d =>
      match s.hostWrite fault a d with
      | none => (s, false)
      | some t => t.writePackets conv fault (a + d.length) ps

/-- The MTU of a queue's port. -/
def State.mtuOf (s : State) (q : Nat) : Nat := max 256 (s.val (0x1100 + s.portOf q) 7)

/-- Packets whose rkey gives no right to what they ask for (R381, R395): they are dropped with a Remote Access Error NAK. -/
def State.keyError (s : State) (q n : Nat) : State := (s.bump (0x1100 + s.portOf q) 0xC n).nakQp q 2

/-- RDMA_WRITE (R397): a packet that is refused is not written, nor any later one. While no rest window of a near stack comes (R253), or in Parked, the write waits
and the command has no effect yet. -/
def execRdmaWrite (queue va rkey : Nat) (b : RdmaBody) (s : State) : Result :=
  if 4096 ≤ queue then .fault .noSuchQueue
  else if !(s.qpTakes queue) then .next (s.passFrames queue (s.framesOf (s.portOf queue) b.octets.length))
  else
    let n := s.framesOf (s.portOf queue) b.octets.length
    let r := (s.rxFrames (s.portOf queue) n).ceMark queue b.ce
    let w := s.win (rkey % 1024)
    if !(w.allows queue rkey true) then .next (r.keyError queue n)
    else if !(w.covers va b.octets.length) then .next (r.nakQp queue 2)
    else if !s.counts || s.nearWaits (w.base + convNts w.conv va) then .next s
    else
      let mtu := r.mtuOf queue
      let ps := packetsOf (convUnit w.conv) mtu (b.octets.length / mtu + 1) 0 0 b.octets
      match r.writePackets w.conv b.fault (w.base + convNts w.conv va) ps with
      | (t, true) => .next (t.sendHost queue 16 (.ack queue))
      | (t, false) => .next (t.nakQp queue 2)

/-- The nonets of the views of R327. -/
def State.viewNts (s : State) (off n : Nat) : List PNt :=
  (List.range n).map fun k =>
    let o := off + k
    if o < 0x4000000 then
      let i := o / 64
      ⟨nonetOf ((s.sess i).words.getD (o % 64 / 8) 0) (o % 8), (s.copyOf i).isNone && s.mem.poisoned (sessAddr i)⟩
    else
      let a := s.adapter ((o - 0x4000000) / 16)
      ⟨nonetOf (if o % 16 < 8 then a.word0 else a.word1) (o % 8), false⟩

/-- Nonets of a window are read, with the checks of near and far blocks (R255, R257); `none`: the read is refused (log 55). -/
def State.hostRead (s : State) (fault : ReadFault) (a n : Nat) : Option (State × List PNt) :=
  if s.sealed a n || s.mem.touchesMirror a n then none
  else
    match region s.fuse.absent a with
    | .scratch c off => s.bgRead c off n (some (Config.sentCycle 1 a))
    | .near k => let t := ((s.passToRest k).checkedRead a n fault).1; some (t, t.mem.read a n)
    | .far => let t := (s.checkedRead a n fault).1; some (t, t.mem.read a n)
    | .session off => some (s, s.viewNts off n)
    | _ => none

/-- RDMA_READ (R397): a read that would return a poisoned word is refused, counted and logged (R451, R466, R469). -/
def execRdmaRead (queue va rkey : Nat) (a : RdmaSpan) (s : State) : Result :=
  if 4096 ≤ queue then .fault .noSuchQueue
  else if !(s.qpTakes queue) then .next (s.passFrames queue 1)
  else
    let r := (s.rxFrames (s.portOf queue) 1).ceMark queue a.ce
    let i := rkey % 1024
    let w := s.win i
    if !(w.allows queue rkey false) then .next (r.keyError queue 1)
    else if !(w.covers va a.len) then .next (r.nakQp queue 2)
    else if !s.counts || s.nearWaits (w.base + convNts w.conv va) then .next s
    else
      match r.hostRead a.fault (w.base + convNts w.conv va) (convNts w.conv a.len) with
      | none => .next (r.nakQp queue 2)
      | some (t, d) =>
        if anyPoison d then .next (((t.bump 0x7020 8 1).logChip 0x0204 0xFF i).nakQp queue 3)
        else
          let lost := w.conv == 2 && d.any fun n => decide (256 ≤ n.v.toNat)
          let t := if lost then t.setWin i { w with lost := true } else t
          .next (t.sendHost queue a.len (.readResp queue (toHost w.conv d)))

end Sys2Proof.Machine
end

