-- ==== Sys2Proof/Machine/Power.lean ====
section
/-! DEFINITION. Stretches, swallows, forced rest windows, the power limiter and TIME_PPS (R475 to R481, R491). -/

namespace Sys2Proof.Machine

/-! ### Removed time (R475, R476) -/

/-- Time passes in which no domain counts a cycle: `n` core cycles are removed from all of them (R476). -/
def State.removeTime (s : State) (n : Nat) : State :=
  let h := b2n s.half + n
  { s.passNs (h / 2) with half := h % 2 == 1 }

/-- The period of the fabric, host-port and memory-controller domains, in root periods (R470). -/
def domPeriod (d : Nat) : Nat := if d = 38 then 5 else 8

/-- The deficits after a request for `n` core cycles by domain `own`, whose own stretch removed one of its periods; each domain
swallows edges while its deficit holds a period (R476). -/
def deficits (l : List Nat) (n own : Nat) : List Nat :=
  l.zipIdx.map fun e =>
    let d := 36 + e.2
    (e.1 + 4 * n - (if d = own then domPeriod d else 0)) % domPeriod d

/-- The controller removes `n` core cycles from every domain but those that domain `own` removed itself. -/
def State.swallow (s : State) (n own : Nat) : State := { s.removeTime n with deficit := deficits s.deficit n own, moves := s.moves + 1 }

/-- The cycle of its own clock in which a domain stands: counted from the chip cycle count (R470), and in Parked, where that stands still, from the time. -/
def State.domCycle (s : State) (d : Nat) : Nat :=
  let cycles := if s.pst = 2 then 2 * s.time + b2n s.half else s.cyc
  if d < 36 then cycles else if d = 38 then cycles * 4 / 5 else cycles / 2

/-- A domain is clocked: in Parked the core groups are gated (R482), and in a freeze all stand still (R555). -/
def State.domRuns (s : State) (d : Nat) : Bool := s.counts || (s.powered && !s.frozen && s.pst == 2 && decide (36 ≤ d))

/-- The core cycles counted in the last 1,000 ns (R477). -/
def State.windowSum (s : State) : Nat := s.strWin.foldl (fun n e => if s.time < e.1 + 1000 then n + e.2 else n) 0

/-- A forced rest window is in progress. -/
def State.inForced (s : State) : Bool := decide (s.cyc < s.forcedTo)

/-- A stretch counts in the window of R477, unless a forced rest window is in progress. -/
def State.countStretch (s : State) (n : Nat) : State :=
  if s.inForced then s
  else
    let s := { s.bump 0x2000 3 n with strWin := (s.strWin.filter fun e => decide (s.time < e.1 + 1000)) ++ [(s.time, n)] }
    if s.val 0x2000 6 < s.windowSum then s.setVal 0x2000 6 s.windowSum else s

/-- STRETCH (R475, R476): at most one in two consecutive cycles of the domain. -/
def execStretch (domain : Nat) (s : State) : Result :=
  if 39 ≤ domain then .fault .noSuchUnit
  else
    let t := s.domCycle domain
    let again := match s.lastStretch.entries.find? fun e => e.1 == domain with | some e => decide (t ≤ e.2 + 1) | none => false
    if !(s.domRuns domain) || again then .next s
    else
      let n := if domain < 36 then 1 else 2
      let s := { s with lastStretch := s.lastStretch.put domain t }
      .next (((s.swallow n domain).countStretch n).bumpAt 0x2000 8 domain 1)

/-- An extra rest window of 320 cycles: every program that runs is held (R477). -/
def State.forceRest (s : State) : State :=
  let t := s.progNums.foldl (fun (s : State) n => s.updProg n fun p => if p.running then p.stall (.rest 320) else p) s
  { t with forcedTo := s.cyc + 320 }.bump 0x2000 5 1

/-- FORCED_REST_WINDOW (R477): the count is above 125, and no forced window is in progress. -/
def execForcedRestWindow (s : State) : Result :=
  if s.counts && decide (125 < s.windowSum) && !s.inForced then .next s.forceRest else .next s

/-! ### The limiter (R481, R495) -/

/-- Core cycles that the limiter swallows in 256 ns at a level: 1 in 8, 1 in 4, 1 in 2. -/
def limiterCycles (level : Nat) : Nat :=
  match level with
  | 0 => 0
  | 1 => 64
  | 2 => 128
  | _ => 256

/-- The measured energy joins the sum since power-on, in eighths of a microjoule: a measurement of 2,048 ns comes every 256 ns (R495, log 56). -/
def State.usedEnergy (s : State) (microjoules : Nat) : State := s.setVal 0x2110 4 (s.val 0x2110 4 + microjoules)

/-- The measured energy joins the furlong in hand, in eighths of a token. A furlong ends where the cycle count enters another. -/
def State.drawn (s : State) (microjoules : Nat) : State :=
  if s.cyc / 4096 = s.furlongNo then { s with furlong := s.furlong + microjoules }
  else
    let last := min (2 ^ 32 - 1) (s.furlong / 8)
    let s := (s.setVal 0x2110 1 last).setVal 0x2110 2 (max last (s.val 0x2110 2))
    { s with furlong := microjoules, furlongNo := s.cyc / 4096 }

/-- The 256 ns before a measurement in which the limiter requested swallows. -/
def State.limited (s : State) : State :=
  if s.limiter = 0 then s
  else
    let n := limiterCycles s.limiter
    let s := ((s.swallow n 39).bump 0x2000 4 n).bump 0x2110 3 256
    if s.limiter = 3 then { s with limFull := s.limFull + 256 } else s

/-- LIMITER_MEASUREMENT (R481): `microjoules` over the last 2,048 ns, and whether the draw exceeds 1,600 W. Forced rest windows, once begun, go on until the
draw is under the budget. In Standby and in a freeze nothing is limited, and the energy counts all the same (R495). -/
def execLimiterMeasurement (microjoules : Nat) (over1600 : Bool) (s : State) : Result :=
  if s.pins.held &&& 8 ≠ 0 then .next s
  else
    let u := s.usedEnergy microjoules
    if !u.powered || u.frozen then .next u
    else
      let s := (u.drawn microjoules).limited
      if microjoules * 1000 ≤ s.val 0x2100 1 * 2048 then .next { s with limiter := 0, limFull := 0, limForce := false }
      else
        let s := { s with limiter := min 3 (s.limiter + 1), limForce := s.limForce || (over1600 && decide (100000 ≤ s.limFull)) }
        if s.limForce && !s.inForced then .next s.forceRest else .next s

/-! ### TIME_PPS (R491) -/

/-- TIME_PPS (R491): an edge that falls `offsetNs` after a whole second of the time counter. The first with no program loaded steps the counter; later ones are
what it slews toward. -/
def execTimePps (offsetNs : Int) (s : State) : Result :=
  if !s.managed || s.val 0x1010 9 = 0 || s.val 0x2000 9 = 0 then .next s
  else
    let seen (st : Nat) : State := (s.setVal 0x2000 0xA st).setVal 0x2000 0xB (enc2 32 offsetNs)
    if s.val 0x2000 0xA ≤ 1 && s.progs.entries.isEmpty then
      .next { seen 2 with time := (((s.time : Int) - offsetNs) % 2 ^ 64).toNat, slew := 0, slewNs := 0 }
    else if 1000 < offsetNs.natAbs then .next (s.bump 0x2000 0xC 1)
    else .next { seen 3 with slew := -offsetNs }

end Sys2Proof.Machine
end

