-- ==== Sys2Proof/Machine/Freeze.lean ====
section
/-! DEFINITION. Freezing the part, its triggers, the state image and the end of a freeze (R554 to R561). -/

namespace Sys2Proof.Machine

/-! ### Freezing (R554 to R556) -/

/-- Every stretchable domain stops, and memory enters self-refresh, every core in the same cycle. A freeze in place ignores every later source, but of sources
that meet in one always-on cycle, which is 1 ns (R470), the first of R554's list is recorded. `source` is coded as 0x9000.06. -/
def State.freeze (s : State) (source : Nat) : State :=
  if !s.powered then s
  else if s.frozen then
    if s.frz = 2 && s.val 0x9000 8 = s.time && source < s.val 0x9000 6 then s.setVal 0x9000 6 source else s
  else
    let s := s.runAll
    let s := ((s.setVal 0x9000 6 source).setVal 0x9000 7 s.cyc).setVal 0x9000 8 s.time
    { s with frz := 2, nearSt := 2, farSt := 2 }

/-- FREEZE_NOW (R554): a write of 1 to 0x9000.09. -/
def execFreezeNow (s : State) : Result := .next (if s.managed then s.freeze 2 else s)

/-- FREEZE_N (R571): a falling edge and a low level of at least 20 ns. -/
def execFreezeN (lowNs : Nat) (s : State) : Result := .next (if 20 ≤ lowNs then s.freeze 1 else s)

/-! ### Triggers (R554, R555, R557, R561) -/

/-- A commit that arms a trigger is accepted: no freeze is in place, and a cycle trigger names a loaded program. -/
def State.armOk (s : State) : Bool :=
  let arm := s.val 0x9000 1
  arm == 0 || (!s.frozen && (arm == 1 || (s.prog (s.val 0x9000 2)).isSome))

/-- A commit of the trigger entries is applied. A cycle trigger whose count the program has passed never fires. -/
def State.applyArm (s : State) : State :=
  if s.frozen then s
  else
    let passed := match s.prog (s.val 0x9000 2) with
      | some p => p.running && decide (s.val 0x9000 3 < s.progCycle p)
      | none => false
    { s with frz := if s.val 0x9000 1 = 0 then 0 else 1, fired := s.val 0x9000 1 == 2 && passed }

/-- Arm a trigger by a commit of its own. -/
def State.arm (s : State) (arm prog at_ : Nat) : State :=
  let t := ((s.setVal 0x9000 1 arm).setVal 0x9000 2 prog).setVal 0x9000 3 at_
  if s.commits && t.armOk then t.applyArm else s

/-- ARM_TIME_TRIGGER (R554). -/
def execArmTimeTrigger (at_ : Nat) (s : State) : Result := .next (if at_ < 2 ^ 64 then s.arm 1 (s.val 0x9000 2) at_ else s)

/-- ARM_CYCLE_TRIGGER (R554). -/
def execArmCycleTrigger (prog at_ : Nat) (s : State) : Result :=
  .next (if at_ < 2 ^ 64 && prog < 65536 then s.arm 2 prog at_ else s)

/-- TIME_TRIGGER (R554): the time counter reaches the armed value, where it has not passed it. -/
def execTimeTrigger (s : State) : Result :=
  let at_ := s.val 0x9000 3
  if s.frz = 1 && s.val 0x9000 1 == 1 && s.counts && decide (s.time ≤ at_) then .next ((s.passToTime at_).freeze 3) else .next s

/-- CYCLE_TRIGGER (R555): the armed program's count reaches the value for the first time; the program stands as at the end of the cycle
before. -/
def execCycleTrigger (s : State) : Result :=
  match s.prog (s.val 0x9000 2) with
  | none => .next s
  | some p =>
    let at_ := s.val 0x9000 3
    let now := s.progCycle p
    if s.frz ≠ 1 || s.val 0x9000 1 ≠ 2 || s.fired || !p.running || at_ < now || !s.live then .next s
    else if now = at_ then .next ({ s with fired := true }.freeze 4)
    else if p.issues then .next ({ s.addCycles (at_ - now) with fired := true }.freeze 4)
    else .next s

/-! ### The state image (R558) -/

/-- Bits packed into words, the first in bit 0. -/
def bitWords (l : List Bool) : List Word :=
  (chunks 72 l).map fun g => BitVec.ofNat 72 (g.foldr (fun b n => b2n b + 2 * n) 0)

/-- N36 values packed two to a word, the first in the low half (R14). -/
def n36Words (l : List Val36) : List Word :=
  (chunks 2 l).map fun g => BitVec.ofNat 72 ((g.headD 0).toNat + 2 ^ 36 * ((g.drop 1).headD 0).toNat)

/-- The accumulators of a set, in row order. -/
def AccSet.image (a : AccSet) : List Acc := (List.range 20736).map fun k => a.acc.get .zero k

/-- The accumulators section of a core: live set, shadow set, and a poison bitmap of both. -/
def Ope.image (o : Ope) : List Word :=
  let l := o.live.image ++ o.shadow.image
  n36Words (l.map (·.v)) ++ bitWords (l.map (·.p))

/-- The scratchpad section of a core: of each powered bank the words, then two bits for each word: poison, unwritten. -/
def Scratch.image (t : Scratch) : List Word :=
  (setBitsOf 16 t.banksOn).flatMap fun b =>
    let l := (List.range 32768).map fun k => t.cell (32768 * b + k)
    l.map (·.v) ++ bitWords (l.flatMap fun c => [c.p, !c.wr])

/-- An exact value as numbers: sign, mantissa and exponent; an infinity and a NaN have two and one. -/
def Fl.parts : Fl → List Int
  | .fin sg m e => [b2n sg, m, e]
  | .inf sg => [b2n sg, 1]
  | .nan => [1]

/-- Accumulator values of an array, each with its poison. -/
def accValues (m : SMap Acc) (n : Nat) : List (List Int × Bool) :=
  (List.range n).map fun k => let a := m.get .zero k; ([(a.v.toNat : Int)], a.p)

/-- Nonets of an array, each with its poison. -/
def ntValues (m : SMap PNt) (n : Nat) : List (List Int × Bool) :=
  (List.range n).map fun k => let a := m.get ⟨0, false⟩ k; ([(a.v.toNat : Int)], a.p)

/-- The arrays of a core in the order of R558, each value with its poison: tile queue, turn buffer, operand cache, the MVE's held vectors and result
queue, decoupling queues. -/
def Core.arrays (c : Core) : List (List Int × Bool) :=
  accValues c.ope.tqMem 82944 ++ ((List.range 41472).map fun k => let e := c.ope.tb.get .zero k; ([(e.code : Int), (e.fmt : Int)], e.p)) ++
    ntValues c.ve.cache 131072 ++ ((List.range 32768).map fun k => let e := c.mve.held.get .zero k; (e.x.parts, e.p)) ++
    accValues c.mve.rqMem 768 ++ (List.range 16).flatMap fun q => let d := c.te.dq.get .reset q; ntValues d.data d.size

/-- A section: its length in nt, then its words. -/
def section_ (ws : List Word) : List Word := BitVec.ofNat 72 (8 * ws.length) :: ws

/-- The present cores. -/
def State.presentCores (s : State) : List Nat := (List.range 144).filter fun c => !(s.fuse.absent.contains c)

/-- The sections that readout_parts names. -/
def State.imageSections (s : State) : List (List Word) :=
  let parts := s.val 0x9000 0xD
  let l := s.presentCores
  (if nbit parts 0 then [Config.scan s.serial] else []) ++
    (if nbit parts 1 then [l.flatMap fun c => (s.core c).ope.image] else []) ++
    (if nbit parts 2 then [l.flatMap fun c => Config.arrayWords (s.core c).arrays] else []) ++
    (if nbit parts 3 then [l.flatMap fun c => (s.core c).scr.image] else [])

/-- The header block. -/
def State.imageHeader (s : State) (sections : Nat) : List Word :=
  let n := s.val 0x9000 2
  let armed := s.val 0x9000 1 == 2
  let pc := match s.prog n with | some p => s.progCycle p | none => 0
  [packWord [(0x1F2E5, 54), (s.val 0x9000 6, 0)], BitVec.ofNat 72 (s.val 0x9000 7), BitVec.ofNat 72 (s.val 0x9000 8),
   if armed then packWord [(n, 56), (pc % 2 ^ 56, 0)] else 0, BitVec.ofNat 72 (s.val 0x9000 0xD), BitVec.ofNat 72 sections, 0, 0]

/-- The state image, in octets. -/
def State.stateImage (s : State) : List (BitVec 8) :=
  let l := s.imageSections
  packWords (s.imageHeader (l.length + 1) ++ l.flatMap section_)

/-! ### Read-out (R558, R559) -/

/-- A read-out can start: Frozen or Read, over a Ready queue on port 0. -/
def State.readoutOk (s : State) : Bool :=
  let q := s.val 0x9000 0xA
  (s.frz == 2 || s.frz == 4) && decide (q < 4096) && (s.queue q).st == 1 && s.portOf q == 0

/-- The read-out starts. -/
def State.startReadout (s : State) : State :=
  let img := s.stateImage
  let s := ({ s with frz := 3, serial := s.serial + 1 }.setVal 0x9000 0xF img.length).setVal 0x9000 0x10 0
  s.sendHost (s.val 0x9000 0xA) img.length (.rdmaWrite (s.val 0x9000 0xA) (s.val 0x9000 0xB) (s.val 0x9000 0xC) img)

/-- READOUT_START (R558, R559). -/
def execReadoutStart (s : State) : Result := .next (if s.managed && s.readoutOk then s.startReadout else s)

/-- READOUT_COMPLETE (R559): the whole image has been written, or the RDMA WRITE failed after `octets`. -/
def execReadoutComplete (ok : Bool) (octets : Nat) (s : State) : Result :=
  if s.frz ≠ 3 then .next s
  else
    let n := s.val 0x9000 0xF
    .next ({ s with frz := 4 }.setVal 0x9000 0x10 (if ok then n else min octets (n - 1)))

/-! ### The end of a freeze (R560) -/

/-- A Jizia port went Down during the freeze. -/
def State.portLost (s : State) : Bool := (List.range 12).any fun p => (s.jport p).st == 0 && (s.jport p).retrain

/-- A freeze may end as freeze_mode says. -/
def State.endOk (s : State) : Bool := (s.frz == 2 || s.frz == 4) && (s.val 0x9000 4 == 0 || !s.portLost)

/-- The freeze ends: in Test the part thaws, in Service the chip escalates. -/
def State.endFreeze (s : State) : State :=
  let t := { s with frz := 0, nearSt := 1, farSt := 1 }
  if s.val 0x9000 4 = 1 then t else t.escalateChip 0x0403 0xFF 0x10

/-- END_TEST (R560). -/
def execEndTest (s : State) : Result := .next (if s.managed && s.endOk && s.val 0x9000 4 == 1 then s.endFreeze else s)

/-- END_SERVICE (R560). -/
def execEndService (s : State) : Result := .next (if s.managed && s.endOk && s.val 0x9000 4 == 0 then s.endFreeze else s)

end Sys2Proof.Machine
end

