-- ==== Sys2Proof/Machine/Management.lean ====
section
/-! DEFINITION. The management controllers, primacy, the flash and its Clover slots, fuses, and attestation (R534 to R547). -/

namespace Sys2Proof.Machine

/-! ### Time in the always-on domain -/

/-- Time passes to a time in ns, where it has not yet; the cycle counts go with it while their domains are clocked. -/
def State.waitUntil (s : State) (t : Nat) : State :=
  if t ≤ s.time then s else if s.counts then s.passToTime t else { s with time := t % 2 ^ 64, half := false }

/-! ### The flash (R540 to R542) -/

/-- The octet at a flash address: as written, or as it left the factory. -/
def State.flashAt (s : State) (a : Nat) : BitVec 8 :=
  match s.flash.entries.find? fun e => e.1 == a with
  | some e => BitVec.ofNat 8 e.2
  | none => Config.flashOctet a

/-- `n` octets of the flash. -/
def State.flashRange (s : State) (a n : Nat) : List (BitVec 8) := (List.range n).map fun k => s.flashAt (a + k)

/-- A little-endian number in the flash. -/
def State.flashNum (s : State) (a n : Nat) : Nat := ofOctets (s.flashRange a n)

/-- Octets are written to the flash. -/
def State.flashWrite (s : State) (a : Nat) (l : List (BitVec 8)) : State :=
  { s with flash := l.zipIdx.foldl (fun f e => f.put (a + e.2) e.1.toNat) s.flash }

/-- Where a Clover slot begins: 0 slot A, 1 slot B. -/
def slotBase (slot : Nat) : Nat := if slot = 0 then 0x100000 else 0x500000

/-- The size of a slot in octets. -/
def slotSize : Nat := 0x400000

/-- A slot is valid (R542). -/
def State.slotValid (s : State) (slot : Nat) : Bool :=
  let b := slotBase slot
  let n (o k : Nat) : Nat := s.flashNum (b + o) k
  let zero (o k : Nat) : Bool := (s.flashRange (b + o) k).all fun x => x == 0
  let len := n 4 4
  let key := n 13 1
  let pub := s.flashRange (b + 52) 1312
  n 0 4 == 0x4E434C56 && decide (1 ≤ len) && decide (len ≤ 4190208) && decide (n 12 1 ≤ 64) && decide (key < 4) && zero 14 6 &&
    zero 3784 312 && !(nbit s.fuse.revoked key) && Config.sha3 pub == s.fuse.keyHash.getD key 0 &&
    Config.dsaVerify pub (Config.sha3 (s.flashRange b 1364)) (s.flashRange (b + 1364) 2420) && decide (s.fuse.svn ≤ n 12 1) &&
    Config.sha3 (s.flashRange (b + 4096) len) == n 20 32

/-- The slot that Yarrow runs: the valid one with the higher SVN, then the higher VERSION, then slot A (R542). -/
def State.pickSlot (s : State) : Option Nat :=
  let sv (k : Nat) : Nat := s.flashNum (slotBase k + 12) 1
  let ver (k : Nat) : Nat := s.flashNum (slotBase k + 8) 4
  match s.slotValid 0, s.slotValid 1 with
  | true, true => some (if sv 0 < sv 1 || (sv 0 == sv 1 && decide (ver 0 < ver 1)) then 1 else 0)
  | true, false => some 0
  | false, true => some 1
  | false, false => none

/-! ### Primacy (R534 to R539) -/

/-- A controller: the off one, or the near one. -/
def State.ctrl (s : State) (off : Bool) : Ctrl := if off then s.off else s.near

/-- Replace a controller. -/
def State.setCtrl (s : State) (off : Bool) (c : Ctrl) : State := if off then { s with off := c } else { s with near := c }

/-- Which controller is primary, as 0x1000.04 codes it. -/
def State.primary (s : State) : Nat := if s.near.bit then 0 else if s.off.bit then 1 else 2

/-- The off controller is the primary. -/
def State.offLeads (s : State) : Bool := s.primary == 1

/-- 2 s of the time counter have passed (R535). -/
def State.twoSeconds (s : State) : Bool := decide (2000000000 ≤ s.time)

/-- A controller may set its bit now (R535). -/
def State.mayClaim (s : State) (off : Bool) : Bool := off == s.fuse.strapOff || s.twoSeconds

/-- A controller sets its token bit, while the other is clear; in the first 2 s only the one that strap names may (R535). -/
def State.claim (s : State) (off : Bool) : State :=
  if (s.ctrl (!off)).bit || (s.ctrl off).bit || !(s.mayClaim off) then s
  else
    let s := (s.setCtrl off { s.ctrl off with bit := true, misses := 0, mute := 0 }).bump 0x1000 5 1
    { s.setVal 0x1000 4 (b2n off) with noPrimary := false }

/-- A controller clears its token bit. -/
def State.yieldBit (s : State) (off : Bool) : State := s.setCtrl off { s.ctrl off with bit := false }

/-- A takeover reset holds a controller for 10 ms and clears its bit (R536). -/
def State.holdCtrl (s : State) (off : Bool) : State :=
  let c := s.ctrl off
  s.setCtrl off { Ctrl.reset with state := 3, slot := c.slot, beat := c.beat, heldTo := s.time + 10000000 }

/-- Every Irair session closes, and an open transaction rolls back (R513, R518). -/
def State.closeAllIr (s : State) : State := { s with irs := .empty, irp := .empty, txn := none }

/-- YARROW_BOOT (R535, R536, R542): a controller that boots, after its hold, runs the chosen Clover, and claims primacy where it may. -/
def execYarrowBoot (off : Bool) (s : State) : Result :=
  let c := s.ctrl off
  if s.pins.held &&& 8 != 0 || !(c.state == 0 || c.state == 3) then .next s
  else
    let t := s.waitUntil c.heldTo
    match t.pickSlot with
    | none => .next (t.setCtrl off { c with state := 2 })
    | some k =>
      let b := slotBase k
      let s := t.setCtrl off { c with
        state := 1, slot := k, svn := t.flashNum (b + 12) 1, version := t.flashNum (b + 8) 4, digest := t.flashNum (b + 20) 32, misses := 0, mute := 0 }
      .next (s.claim off)

/-- PRIMACY_CLAIM (R535): 2 s have passed with no primary. -/
def execPrimacyClaim (off : Bool) (s : State) : Result :=
  if (s.ctrl off).state == 1 && s.primary == 2 && s.pins.held &&& 8 == 0 then .next ((s.waitUntil 2000000000).claim off) else .next s

/-- NO_PRIMARY (R542): neither controller has become primary 2 s after power-on. -/
def execNoPrimary (s : State) : Result :=
  if s.primary == 2 && s.pins.held &&& 8 == 0 then .next { s.waitUntil 2000000000 with noPrimary := true } else .next s

/-- One controller's millisecond: its heartbeat moves on; `peer` says that the peer's word changed. A peer that does not run is not watched
(log 59). -/
def Ctrl.pulse (c : Ctrl) (alive peer peerRuns : Bool) : Ctrl :=
  if c.state ≠ 1 then c
  else if !alive then { c with mute := c.mute + 1 }
  else { c with beat := c.beat + 1, misses := if !peerRuns || peer then 0 else c.misses + 1, mute := 0 }

/-- HEARTBEAT (R536): one millisecond of the time counter ends, and the controllers that are alive have moved their words on in it. -/
def execHeartbeat (nearAlive offAlive : Bool) (s : State) : Result :=
  if s.pins.held &&& 8 != 0 then .next s
  else
    let n := s.near
    let f := s.off
    let ms := max (s.time / 1000000) (s.beatMs + 1)
    .next { s.waitUntil (1000000 * ms) with
      beatMs := ms
      near := n.pulse nearAlive (f.state == 1 && offAlive) (f.state == 1)
      off := f.pulse offAlive (n.state == 1 && nearAlive) (n.state == 1) }

/-- The chip escalates with cause controller takeover, where its domains are powered (R453, R536, R538). -/
def State.takeoverReset (s : State) (detail : Nat) : State :=
  if s.powered then s.escalate ⟨0, 0x0404, 4, 0, 0, 0xFF, 0, 0, 0, detail⟩ 5 else s.logChip 0x0404 0xFF detail

/-- The standby takes over (R536). -/
def State.takeOver (s : State) : State :=
  let off := s.offLeads
  (((s.holdCtrl off).claim (!off)).bump 0x1000 8 1).closeAllIr.takeoverReset 1

/-- The standby has missed three heartbeats of the primary. -/
def State.primaryLost (s : State) : Bool :=
  let st := s.ctrl (!s.offLeads)
  s.primary != 2 && st.state == 1 && decide (3 ≤ st.misses)

/-- The primary has missed three heartbeats of the standby. -/
def State.standbyLost (s : State) : Bool :=
  let p := s.ctrl s.offLeads
  s.primary != 2 && p.state == 1 && (s.ctrl (!s.offLeads)).state == 1 && decide (3 ≤ p.misses)

/-- TAKEOVER (R536). -/
def execTakeover (s : State) : Result := .next (if s.primaryLost then s.takeOver else s)

/-- The primary resets a silent standby (R537). -/
def State.resetStandby (s : State) : State :=
  let off := s.offLeads
  (s.holdCtrl (!off)).setCtrl off { s.ctrl off with misses := 0 }

/-- STANDBY_RESTART (R537). -/
def execStandbyRestart (s : State) : Result := .next (if s.standbyLost then s.resetStandby.bump 0x1000 9 1 else s)

/-- TOKEN_CONFLICT (R538): both bits are found set, or both controllers request a takeover reset of each other and only the near
controller's takes effect. -/
def execTokenConflict (both : Bool) (s : State) : Result :=
  if both then
    if s.primary != 2 then
      let gen := if s.near.bit then s else s.bump 0x1000 5 1
      let t := (gen.holdCtrl true).setCtrl false { s.near with bit := true, misses := 0, mute := 0 }
      let t := t.setVal 0x1000 4 0
      .next ((if s.near.bit then t else t.closeAllIr).takeoverReset 3)
    else .next s
  else if s.primaryLost && s.standbyLost then
    .next (if s.offLeads then s.takeOver else s.resetStandby.bump 0x1000 9 1)
  else .next s

/-! ### Firmware (R539, R543 to R545) -/

/-- Irair statuses that an operation answers (R508): OK, BUSY, RANGE, TYPE, DENIED, NOSESSION. -/
def stOk : Nat := 0
def stBusy : Nat := 1
def stNoSession : Nat := 5
def stDenied : Nat := 6
def stRange : Nat := 7
def stType : Nat := 8

/-- The slot that the primary did not boot. -/
def State.otherSlot (s : State) : Nat := if (s.ctrl s.offLeads).slot = 0 then 1 else 0

/-- A running controller booted from a slot. -/
def State.slotRuns (s : State) (k : Nat) : Bool := (s.near.state == 1 && s.near.slot == k) || (s.off.state == 1 && s.off.slot == k)

/-- The check of a write of update_data. -/
def State.updateStatus (s : State) (l : List (BitVec 8)) : Nat :=
  if l.length ≠ 1024 then stType
  else if slotSize < s.val 0x8000 8 + 1024 || s.val 0x8000 8 % 1024 ≠ 0 then stRange
  else if s.slotRuns s.otherSlot then stBusy
  else stOk

/-- A write of update_data (R544). -/
def State.updateData (s : State) (l : List (BitVec 8)) : State :=
  let o := s.val 0x8000 8
  ((s.flashWrite (slotBase s.otherSlot + o) l).setVal 0x8000 8 (o + 1024)).setVal 0x8000 0xA 1

/-- A write of update_check (R544). -/
def State.updateCheck (s : State) : State := s.setVal 0x8000 0xA (if s.slotValid s.otherSlot then 2 else 3)

/-- A write of restart_standby (R545). -/
def State.restartStandby (s : State) : State := s.resetStandby

/-- Handover is possible (R539, R545). -/
def State.handoverStatus (s : State) : Nat := if (s.ctrl (!s.offLeads)).state == 1 then stOk else stBusy

/-- Primacy is handed over; the former primary restarts (R539). -/
def State.handOver (s : State) : State :=
  let off := s.offLeads
  let c := s.ctrl off
  (((s.setCtrl off { Ctrl.reset with slot := c.slot, beat := c.beat }).claim (!off))).closeAllIr

/-- The fused counter can advance: both controllers run one SVN (R545). -/
def State.svnStatus (s : State) : Nat :=
  if s.near.state == 1 && s.off.state == 1 && s.near.svn == s.off.svn then stOk else stBusy

/-- The fused counter advances (R543). -/
def State.commitSvn (s : State) : State := { s with fuse := { s.fuse with svn := max s.fuse.svn (s.ctrl s.offLeads).svn } }

/-- The key slot of the Clover in a flash slot. -/
def State.keyOf (s : State) (slot : Nat) : Nat := s.flashNum (slotBase slot + 13) 1

/-- A key slot can be revoked (R545). -/
def State.revokeStatus (s : State) (k : Nat) : Nat :=
  let runs (c : Ctrl) : Bool := c.state == 1 && s.keyOf c.slot == k
  let left := (List.range 4).filter fun j => !(nbit s.fuse.revoked j)
  if 4 ≤ k then stRange else if runs s.near || runs s.off || left == [k] then stBusy else stOk

/-- A key slot is revoked (R543). -/
def State.revoke (s : State) (k : Nat) : State := { s with fuse := { s.fuse with revoked := setBit s.fuse.revoked k true } }

/-! ### Attestation (R547, R548) -/

/-- The octets of every subindex of 0x8020 in order, subindex 0 first, as R498 encodes them (R497). -/
def State.settings (s : State) : List (BitVec 8) :=
  toOctets 1 0x20 ++ toOctets 1 (s.val 0x8020 1) ++ toOctets 1 (s.val 0x8020 2) ++ ((List.range 4).flatMap fun n => toOctets 32 (s.val 0x8020 (3 + n))) ++
    ((List.range 8).flatMap fun n => toOctets 32 (s.val 0x8020 (0x10 + 2 * n)) ++ toOctets 1 (s.val 0x8020 (0x11 + 2 * n))) ++
    toOctets 4 (s.val 0x8020 0x20)

/-- The octets of a hash held as a number, in the order in which the hash gives them. -/
def hashOctets (h : Nat) : List (BitVec 8) := toOctets 32 h

/-- A report but for its signature (R547). -/
def State.reportBody (s : State) (nonce : List (BitVec 8)) : List (BitVec 8) :=
  let p := s.ctrl s.offLeads
  let digest (c : Ctrl) : Nat := c.digest
  toOctets 4 0x52414E41 ++ nonce ++ toOctets 8 s.time ++ s.fuse.serial ++
    [BitVec.ofNat 8 (b2n s.fuse.grade132), BitVec.ofNat 8 (b2n (!s.fuse.a1)), BitVec.ofNat 8 s.primary, 0] ++
    hashOctets s.fuse.yarrow ++ hashOctets (digest s.near) ++ hashOctets (digest s.off) ++ toOctets 4 p.version ++
    [BitVec.ofNat 8 p.svn, BitVec.ofNat 8 s.fuse.svn, BitVec.ofNat 8 s.fuse.revoked, 0] ++ hashOctets (Config.sha3 s.settings) ++
    toOctets 2 s.progs.entries.length ++ toOctets 6 0 ++
    s.progs.entries.flatMap fun e =>
      toOctets 2 e.1 ++ toOctets 2 (b2n e.2.running) ++ toOctets 4 0 ++ hashOctets e.2.digest ++ hashOctets e.2.memDigest

/-- The identity key signs a digest: 2,420 octets (R546). -/
def State.sign (s : State) (digest : Nat) : List (BitVec 8) := (Config.dsaSign s.fuse.idKey digest ++ List.replicate 2420 0).take 2420

/-- A report (R547). -/
def State.report (s : State) (nonce : List (BitVec 8)) : List (BitVec 8) :=
  let b := s.reportBody nonce
  b ++ s.sign (Config.sha3 b)

/-- An open session of Irair. -/
def State.irSess (s : State) (id : Nat) : Option IrSess := (s.irs.entries.find? fun e => e.1 == id).map (·.2)

/-- A write of nonce forms a report for the session (R547). -/
def State.writeNonce (s : State) (id : Nat) (l : List (BitVec 8)) : State :=
  match s.irSess id with
  | none => s
  | some i => { s with irs := s.irs.put id { i with nonce := ofOctets l, report := s.report l } }.bump 0x8010 9 1

/-! ### The commands -/

/-- A session of the Owner role. -/
def State.ownerOf (s : State) (id : Nat) : Bool := match s.irSess id with | some i => i.role == 2 | none => false

/-- A session that satisfies an Operator's rights (R499). -/
def State.operatorOf (s : State) (id : Nat) : Bool := match s.irSess id with | some i => decide (1 ≤ i.role) | none => false

/-- ALERT_ACK (R467): every record up to the sequence number is acknowledged. -/
def execAlertAck (seq : Nat) (s : State) : Result := .next (if s.managed then { s with acked := max s.acked (seq + 1) } else s)

/-- UPDATE_DATA (R544). -/
def execUpdateData (session : Nat) (octets : List (BitVec 8)) (s : State) : Result :=
  .next (if s.managed && s.ownerOf session && s.updateStatus octets == stOk then s.updateData octets else s)

/-- UPDATE_CHECK (R544). -/
def execUpdateCheck (session : Nat) (s : State) : Result := .next (if s.managed && s.ownerOf session then s.updateCheck else s)

/-- RESTART_STANDBY (R545). -/
def execRestartStandby (session : Nat) (s : State) : Result := .next (if s.managed && s.ownerOf session then s.restartStandby else s)

/-- HANDOVER (R539). -/
def execHandover (session : Nat) (s : State) : Result :=
  .next (if s.managed && s.ownerOf session && s.handoverStatus == stOk then s.handOver else s)

/-- COMMIT_SVN (R545). -/
def execCommitSvn (session : Nat) (s : State) : Result :=
  .next (if s.managed && s.ownerOf session && s.svnStatus == stOk then s.commitSvn else s)

/-- REVOKE_SLOT (R545). -/
def execRevokeSlot (session slot : Nat) (s : State) : Result :=
  .next (if s.managed && s.ownerOf session && s.revokeStatus slot == stOk then s.revoke slot else s)

/-- NONCE (R547). -/
def execNonce (session : Nat) (octets : List (BitVec 8)) (s : State) : Result :=
  .next (if s.managed && s.operatorOf session && octets.length == 32 then s.writeNonce session octets else s)

end Sys2Proof.Machine
end

