-- ==== Sys2Proof/Machine/OdRead.lean ====
section
/-! DEFINITION. Reading the dictionary (R497 to R501, R520 to R528): selectors, what each entry reads as, and its octets. -/

namespace Sys2Proof.Machine

/-! ### Selectors (R501) -/

/-- The selectors: the entries named select or _select, and the two offsets that R548 calls selectors. -/
def selectors : List (Nat × Nat) :=
  [(0x1180, 1), (0x1190, 1), (0x2000, 7), (0x2010, 1), (0x2010, 2), (0x2110, 5), (0x3000, 1), (0x3010, 3), (0x4000, 8), (0x4100, 1),
   (0x5100, 3), (0x6000, 2), (0x6010, 2), (0x7000, 3), (0x7010, 1), (0x7100, 1), (0x7100, 2), (0x8010, 2), (0x8010, 7)]

/-- An entry is a selector. -/
def isSelector (idx sub : Nat) : Bool := selectors.contains (idx, sub)

/-- What a request sees: its session, and the selectors that hold for it, by index × 256 + subindex. -/
structure View where
  id : Nat
  sess : Option IrSess
  sels : SMap Nat
  deriving DecidableEq, Repr

/-- A selector's value in a view. -/
def View.sel (v : View) (f : Fuse) (idx sub : Nat) : Nat := lookupL (odDefault f idx sub) v.sels.entries (idx * 256 + sub)

/-- A selector takes a value in a view. -/
def View.setSel (v : View) (idx sub n : Nat) : View := { v with sels := v.sels.put (idx * 256 + sub) n }

/-- The view of a session, or of a request without one. -/
def State.viewOf (s : State) (id : Nat) : View :=
  match s.irSess id with
  | some i => ⟨id, some i, i.sels⟩
  | none => ⟨0, none, .empty⟩

/-- The selector value under which an entry's value is stored. -/
def View.place (v : View) (f : Fuse) (idx sub : Nat) : Nat :=
  if idx = 0x1180 then v.sel f 0x1180 1
  else if idx = 0x7010 && sub = 6 then v.sel f 0x7010 1
  else if idx = 0x2000 && sub = 8 then v.sel f 0x2000 7
  else 0

/-! ### Reported values -/

/-- Bits of the presence map (R525). -/
def State.presentMask (s : State) : Nat := s.presentCores.foldl (fun n c => n + 2 ^ c) 0

/-- The state of a core in the core map (R525). -/
def State.coreState (s : State) (c : Nat) : Nat :=
  if 144 ≤ c || s.fuse.absent.contains c then 0
  else if (s.core c).failed then 4
  else if nbit s.enabledMask c then 1
  else if (s.core c).prog.isSome then 2
  else 3

/-- The kind of a channel end (R299). -/
def MEnd.kind (e : MEnd) : Nat :=
  match e.role with
  | 1 => if e.session then 3 else 1
  | 2 => if e.session then 4 else 2
  | 3 => 5
  | _ => 0

/-- The records of the event log as words (R465). -/
def Event.words (e : Event) : List Word :=
  [BitVec.ofNat 72 (e.time % 2 ^ 64), packWord [(e.code, 56), (e.tier, 52), (e.prog % 2 ^ 16, 36), (e.step % 2 ^ 36, 0)],
   packWord [(e.core % 256, 64), (e.eng, 61), (e.ctx, 59), (e.pc % 2 ^ 36, 0)], BitVec.ofNat 72 (e.detail % 2 ^ 60)]

/-- The number a program reports, 0 where there is none. -/
def State.ofProg (s : State) (n : Nat) (f : Prog → Nat) : Nat := match s.prog n with | some p => f p | none => 0

/-- Entries 0x1000 to 0x12FF. -/
def State.readPorts (s : State) (v : View) (idx sub : Nat) : Option Nat :=
  if idx = 0x1000 then
    match sub with
    | 2 => some (if s.val 0x1000 1 != 0xFF then 2 else b2n s.pins.chainIn)
    | 3 => some s.fuse.t1sMac
    | 4 => some s.primary
    | 6 => some (b2n s.fuse.strapOff)
    | 7 => some ((s.ctrl (!s.offLeads)).shown s.time)
    | _ => none
  else if idx = 0x1010 then
    if sub = 0xA then some (if s.val 0x1010 9 = 1 then 2 else s.val 0x1010 0xA) else none
  else if idx = 0x1020 then if sub = 2 then some s.irs.entries.length else none
  else if 0x1100 ≤ idx && idx < 0x1104 then if sub = 2 then some (s.hport (idx - 0x1100)).st else none
  else if idx = 0x1180 then if sub = 3 then some (s.queue (v.sel s.fuse 0x1180 1)).st else none
  else if idx = 0x1190 then
    let w := s.win (v.sel s.fuse 0x1190 1)
    match sub with
    | 2 => some w.st
    | 3 => some w.base
    | 4 => some w.size
    | 5 => some (w.conv + 4 * b2n w.rd + 8 * b2n w.wr + 16 * b2n w.anyq)
    | 6 => some (b2n w.lost)
    | _ => none
  else if 0x1200 ≤ idx && idx < 0x120C then 
    let st := (s.jport (idx - 0x1200)).st
    if sub = 2 then some st
    else if sub = 7 && (st == 0 || st == 1 || st == 7) then some 0
    else none
  else none

/-- The state of a crossing (R493). -/
def State.crossState (s : State) (a b : Nat) : Nat :=
  if !(crossing a b) then 3 else if s.badCross.contains (a * 64 + b) then 2 else b2n s.calibrated

/-- The declared latency of a crossing; between adjacent core groups it is part of the hop of 2 cycles (R345, R473; log 60). -/
def declaredCross (a b : Nat) : Nat := if a < 36 && b < 36 then 2 else 4

/-- The least slack that a crossing has had left since it was calibrated: 8 cycles, of which each stretch and swallow may take some (R474, R493). -/
def State.slackMin (s : State) (a b : Nat) : Nat :=
  (List.range s.moves).foldl (fun n k => min n (Config.slackLeft a b (s.val 0x2010 7) k)) 8

/-- Entries 0x2000 to 0x2FFF. -/
def State.readPower (s : State) (v : View) (idx sub : Nat) : Option Nat :=
  let a := v.sel s.fuse 0x2010 1
  let b := v.sel s.fuse 0x2010 2
  match idx, sub with
  | 0x2000, 1 => some (b2n (s.pins.held &&& 8 == 0))
  | 0x2000, 10 => some (if s.val 0x2000 9 = 0 then 0 else max 1 (s.val 0x2000 0xA))
  | 0x2010, 3 => some (declaredCross a b)
  | 0x2010, 4 => some (if s.crossState a b = 1 then Config.crossPad a b (s.val 0x2010 7) % 256 else 0)
  | 0x2010, 5 => some (if s.crossState a b = 3 then 8 else s.slackMin a b)
  | 0x2010, 6 => some (s.crossState a b)
  | 0x2100, 2 => some (budgetTokens (s.val 0x2100 1))
  | 0x2100, 4 => some (budgetTokens (s.val 0x2100 1) - allowance)
  | 0x2100, 5 => some s.declaredSum
  | 0x2110, 4 => some (s.val 0x2110 4 / 8000000)
  | 0x2110, 6 => some (s.ofProg (v.sel s.fuse 0x2110 5) (·.tokens))
  | 0x2200, 2 => some s.pst
  | 0x2200, 3 => some 0
  | _, _ => none

/-- Entries 0x3000 to 0x5FFF. -/
def State.readCores (s : State) (v : View) (idx sub : Nat) : Option Nat :=
  if idx = 0x4010 then
    if sub ≤ 144 then some (if s.fuse.absent.contains (sub - 1) then 0 else (s.core (sub - 1)).scr.banksPowered) else none
  else
    match idx, sub with
    | 0x3000, 2 => some s.nearSt
    | 0x3000, 5 => some (if s.powered then Config.stackTemp (v.sel s.fuse 0x3000 1) s.time % 2 ^ 32 else 0)
    | 0x3000, 4 => some (nearBase + v.sel s.fuse 0x3000 1 * stackSize)
    | 0x3010, 1 => some (if s.farSt = 1 then 48 else 0)
    | 0x3010, 4 => some s.farSt
    | 0x3010, 6 => some (if s.powered then Config.eccReports (v.sel s.fuse 0x3010 3) s.time % 2 ^ 64 else 0)
    | 0x4000, 1 => some (nbits s.presentMask 63 0)
    | 0x4000, 2 => some (nbits s.presentMask 127 64)
    | 0x4000, 3 => some (nbits s.presentMask 143 128)
    | 0x4000, 4 => some s.fuse.dcol
    | 0x4000, 9 => some (s.coreState (v.sel s.fuse 0x4000 8))
    | 0x4100, 2 => some (s.core (v.sel s.fuse 0x4100 1)).profile
    | 0x4100, 3 => some (s.core (v.sel s.fuse 0x4100 1)).opePad
    | 0x4100, 4 => some (s.core (v.sel s.fuse 0x4100 1)).vePad
    | 0x4100, 5 => some (if s.fuse.a1 then 3 else 7)
    | 0x5010, 2 => some s.tickNow
    | 0x5100, 4 => some (s.adapter (v.sel s.fuse 0x5100 3)).users
    | _, _ => none

/-- Entries 0x6000 to 0x7FFF. -/
def State.readRuns (s : State) (v : View) (idx sub : Nat) : Option Nat :=
  let p := v.sel s.fuse 0x6000 2
  let r := v.sel s.fuse 0x7010 1
  let k := s.core (v.sel s.fuse 0x7100 1)
  let n := v.sel s.fuse 0x7100 2
  let e := k.me.endOf n
  let more := if nbit k.me.bmask n && k.me.bkind != 0 then k.now - k.me.bsince else 0
  match idx, sub with
  | 0x6000, 3 => some (s.ofProg p fun x => b2n x.lat.free)
  | 0x6000, 4 => some (s.ofProg p (·.sched))
  | 0x6000, 5 => some (s.ofProg p (·.stallCycles))
  | 0x6000, 6 => some (s.ofProg p (·.lost))
  | 0x6000, 7 => some (s.ofProg p (·.lastStep))
  | 0x6000, 8 => some s.time
  | 0x6010, 3 => some (s.ofProg (v.sel s.fuse 0x6010 2) (·.seed))
  | 0x7000, 2 => some (s.val 0x7000 1 - 4096)
  | 0x7000, 4 => some (match s.events.entries.find? fun x => x.1 == v.sel s.fuse 0x7000 3 with
      | some x => ofOctets (packWords x.2.words)
      | none => 0)
  | 0x7010, 2 => some (s.ofProg r (·.errRemounts))
  | 0x7010, 3 => some (s.ofProg r (·.wideRemounts))
  | 0x7010, 4 => some (s.ofProg r (·.stepErr))
  | 0x7010, 5 => some (match s.prog r with | some x => x.lastCommitted | none => 2 ^ 36 - 1)
  | 0x7010, 6 => some (s.ofProg r (·.firstStep))
  | 0x7100, 3 => some e.kind
  | 0x7100, 4 => some (if e.kind = 2 then e.fill else 0)
  | 0x7100, 5 => some (if e.kind = 2 then (e.word23 0 false).toNat else 0)
  | 0x7100, 6 => some (if e.kind = 3 || e.kind = 4 then (e.word23 0 false).toNat else 0)
  | 0x7100, 7 => some (if e.kind = 3 || e.kind = 4 then (e.word23 more true).toNat else 0)
  | _, _ => none

/-- Entries 0x8000 to 0x9FFF and 0xF000. -/
def State.readSecure (s : State) (v : View) (idx sub : Nat) : Option Nat :=
  let p := s.ctrl s.offLeads
  match idx, sub with
  | 0x8000, 1 => some s.fuse.yarrow
  | 0x8000, 2 => some s.near.digest
  | 0x8000, 3 => some s.off.digest
  | 0x8000, 4 => some p.slot
  | 0x8000, 5 => some p.svn
  | 0x8000, 6 => some s.fuse.svn
  | 0x8000, 7 => some s.fuse.revoked
  | 0x8000, 9 => some (ofOctets (s.flashRange (slotBase s.otherSlot + s.val 0x8000 8) 1024))
  | 0x8010, 4 => some s.fuse.idKeyHash
  | 0x8010, 5 => some (match v.sess with | some i => i.nonce | none => 0)
  | 0x8010, 6 => some (match v.sess with | some i => i.report.length | none => 0)
  | 0x9000, 5 => some s.frz
  | 0xF000, 1 => some (b2n s.txn.isSome)
  | 0xF000, 2 => some (match s.txn with | some t => t.owner | none => 0)
  | 0xF000, 3 => some (match s.txn with | some t => t.items.length | none => 0)
  | 0xF000, 4 => some (match s.txn with | some t => (10000000000 - (s.time - t.since)) / 1000000 | none => 0)
  | _, _ => none

/-- The highest subindex that an index defines (R497); `none`: the index is not defined. -/
def highestSub (idx : Nat) : Option Nat :=
  odRows.foldl (fun m r =>
    if decide (r.idx ≤ idx) && decide (idx < r.idx + r.idxN) then
      let top := r.sub + r.step * (r.subN - 1)
      some (match m with | some k => max k top | none => top)
    else m) none

/-- The number an entry reads as; an absent core's end reads its defaults (R299). -/
def State.odNum (s : State) (v : View) (idx sub : Nat) : Nat :=
  if sub = 0 then (highestSub idx).getD 0
  else if isSelector idx sub then v.sel s.fuse idx sub
  else
    let x :=
      if idx < 0x1000 then
        match idx, sub with
        | 0, 2 => some (b2n s.fuse.grade132)
        | 0, 3 => some (b2n (!s.fuse.a1))
        | 0, 6 => some (s.ctrl s.offLeads).version
        | _, _ => none
      else if idx < 0x2000 then s.readPorts v idx sub
      else if idx < 0x3000 then s.readPower v idx sub
      else if idx < 0x6000 then s.readCores v idx sub
      else if idx < 0x8000 then s.readRuns v idx sub
      else s.readSecure v idx sub
    x.getD (s.valAt idx sub (v.place s.fuse idx sub))

/-! ### Octets (R498) -/

/-- ASCII octets. -/
def ascii (t : String) : List (BitVec 8) := t.toList.map fun c => BitVec.ofNat 8 c.toNat

/-- The octets of a type; a STR or a BLOB without a fixed length has none of its own. -/
def OdRow.octets (r : OdRow) : Nat :=
  match r.typ with
  | .u8 | .bool | .enum => 1
  | .u16 => 2
  | .u32 | .i32 => 4
  | .u64 => 8
  | .str | .blob => r.len

/-- The ordering code (R1, R520). -/
def Fuse.code (f : Fuse) : String := if f.grade132 then "AKN-132-B0-LG" else if f.a1 then "AKN-144-A1-LG" else "AKN-144-B0-LG"

/-- The length of the identity certificate: a DER sequence of the long form with two length octets (R546; PRESUMED from X.690, log 61). -/
def State.certLength (s : State) : Nat := min 65536 (4 + (s.flashAt 0xA00002).toNat * 256 + (s.flashAt 0xA00003).toNat)

/-- A chunk of at most 1,024 octets from an offset (R548). -/
def chunkAt (l : List (BitVec 8)) (o : Nat) : List (BitVec 8) := (l.drop o).take 1024

/-- The octets of an entry's value; `none`: the entry is not defined. -/
def State.odRead (s : State) (v : View) (idx sub : Nat) : Option (List (BitVec 8)) :=
  if sub = 0 then (highestSub idx).map fun n => toOctets 1 n
  else
    match odRow idx sub with
    | none => none
    | some r =>
      match idx, sub with
      | 0, 1 => some (ascii s.fuse.code)
      | 0, 4 => some s.fuse.serial
      | 0, 5 => some (ascii "Vrelroth")
      | 0x8010, 1 => some (toOctets 2 s.certLength)
      | 0x8010, 3 => some (chunkAt (s.flashRange 0xA00000 s.certLength) (v.sel s.fuse 0x8010 2))
      | 0x8010, 8 => some (match v.sess with | some i => chunkAt i.report (v.sel s.fuse 0x8010 7) | none => [])
      | _, _ => some (if r.acc = .wo then List.replicate r.octets 0 else toOctets r.octets (s.odNum v idx sub))

/-! ### DESCRIBE and NEXT (R506, R528) -/

/-- The names that a row defines, as index × 256 + subindex. -/
def OdRow.names (r : OdRow) : List Nat :=
  (List.range r.idxN).flatMap fun i => (r.idx + i) * 256 :: (List.range r.subN).map fun k => (r.idx + i) * 256 + r.sub + r.step * k

/-- The next defined entry after a name (R506); its subindices 0 are entries too (R497). -/
def nextEntryOf (n : Nat) : Option Nat :=
  (odRows.flatMap OdRow.names).foldl (fun m k => if k ≤ n then m else some (match m with | some j => min j k | none => k)) none

end Sys2Proof.Machine
end

