-- ==== Sys2Proof/Machine/OdWrite.lean ====
section
/-! DEFINITION. Writing the dictionary: the checks of an item, values that apply at once, staging, and the validation and the commit point
of a transaction (R499, R501, R507, R514 to R519, R549, R551). -/

namespace Sys2Proof.Machine

/-- Irair statuses that a write answers (R508). -/
def stNoEntry : Nat := 2
def stReadOnly : Nat := 3
def stNoTxn : Nat := 4
def stConflict : Nat := 9
def stTxFull : Nat := 10
def stTimeout : Nat := 11
def stInvalid : Nat := 12
def stMalformed : Nat := 13
def stVersion : Nat := 14
def stAuth : Nat := 15

/-- An item of a READ or a WRITE (R507). -/
structure Item where
  idx : Nat
  sub : Nat
  val : List (BitVec 8)
  deriving DecidableEq, Repr

/-! ### The checks of an item (R498, R499, R515) -/

/-- Bounds that an entry's own table gives in words: multiples, powers of two and the values of mtu. -/
def bounded (idx sub n : Nat) : Bool :=
  let pow2 := (List.range 17).any fun k => n == 2 ^ k
  if 0x1100 ≤ idx && idx < 0x1104 && sub = 7 then n == 256 || n == 512 || n == 1024 || n == 2048 || n == 4096
  else
    match idx, sub with
    | 0x1180, 8 => n % 1024 == 0
    | 0x1180, 9 => pow2
    | 0x1180, 10 => n % 32 == 0
    | 0x1180, 12 => pow2
    | 0x7200, 7 => n % 1024 == 0
    | 0x8000, 8 => n % 1024 == 0
    | 0x8010, 2 => n % 1024 == 0
    | 0x8010, 7 => n % 1024 == 0
    | _, _ => true

/-- The octets are a value of the entry's type: OK, TYPE or RANGE (R498). -/
def OdRow.typeStatus (r : OdRow) (idx sub : Nat) (val : List (BitVec 8)) : Nat :=
  let n := ofOctets val
  if val.length ≠ r.octets then stType
  else
    match r.typ with
    | .str | .blob => stOk
    | .bool => if 1 < n then stType else stOk
    | _ => if r.lo ≤ n && n ≤ r.hi && bounded idx sub n then stOk else stRange

/-- The status of a write of an item but for its home rule: existence, access, type and bounds. `own`: the session owns the open
transaction. The bank words of absent cores are refused with RANGE (R240). -/
def State.itemStatus (s : State) (v : View) (own : Bool) (idx sub : Nat) (val : List (BitVec 8)) : Nat :=
  if sub = 0 then (if (highestSub idx).isSome then stReadOnly else stNoEntry)
  else
    match odRow idx sub with
    | none => stNoEntry
    | some r =>
      if r.acc = .ro then stReadOnly
      else
        match v.sess with
        | none => stNoSession
        | some i =>
          if i.role = 0 || (r.acc = .sw && i.role ≠ 2) then stDenied
          else if r.acc = .tw && !own then stNoTxn
          else if idx = 0x4010 && s.fuse.absent.contains (sub - 1) then stRange
          else r.typeStatus idx sub val

/-! ### Home rules -/

/-- An Owner key is enrolled (R549). -/
def State.ownerKey (s : State) : Bool :=
  (List.range 8).any fun n => s.val 0x8020 (0x11 + 2 * n) == 2 && s.val 0x8020 (0x10 + 2 * n) != 0

/-- An entry of the enrolled manager keys. -/
def managerEntry (idx sub : Nat) : Bool := idx == 0x8020 && decide (0x10 ≤ sub) && decide (sub ≤ 0x1F)

/-- A claimed part would be left without an Owner key (R549). -/
def State.unowned (s t : State) : Bool := s.val 0x8020 2 == 1 && !t.ownerKey

/-- A value that a write does not store: it acts, or it has a home of its own. -/
def isAction (idx sub : Nat) : Bool :=
  match idx with
  | 0x2200 => sub == 1 || sub == 3
  | 0x4010 => true
  | 0x7000 => sub == 6
  | 0x7010 => sub == 6
  | 0x8000 => sub == 9 || decide (0xB ≤ sub)
  | 0x8010 => sub == 5
  | 0x9000 => sub == 9 || sub == 0xE || sub == 0x11
  | _ => false

/-- Store the value of a staged item. -/
def State.store (s : State) (x : Staged) : State :=
  if isAction x.idx x.sub then s else s.setAt x.idx x.sub x.sel (ofOctets x.val)

/-- The home rule of an item that is written at once (R436, R468, R544, R545, R549, R559, R560): OK, BUSY or RANGE. -/
def State.homeStatus (s : State) (x : Staged) : Nat :=
  let n := ofOctets x.val
  match x.idx, x.sub with
  | 0x7010, 6 =>
    match s.prog x.sel with
    | none => stRange
    | some p => if p.starting || p.running || p.stopping then stBusy else stOk
  | 0x8000, 9 => s.updateStatus x.val
  | 0x8000, 0xD => if n = 1 then s.handoverStatus else stOk
  | 0x8000, 0xE => if n = 1 then s.svnStatus else stOk
  | 0x8000, 0xF => s.revokeStatus n
  | 0x9000, 0xE => if n = 1 && !s.readoutOk then stBusy else stOk
  | 0x9000, 0x11 => if n = 1 && !s.endOk then stBusy else stOk
  | _, _ => if managerEntry x.idx x.sub && s.unowned (s.store x) then stRange else stOk

/-! ### Applying values -/

/-- The node ID is assigned and CHAIN_OUT rises (R531). -/
def State.assignNode (s : State) (n : Nat) : State := { s.setVal 0x1000 1 n with pins := { s.pins with chainOut := true } }

/-- A vetting run starts by a commit of its action (R458 to R461). -/
def State.beginVet (s : State) : State :=
  let prog := s.val 0x7200 2
  let m := s.val 0x7200 3 + 2 ^ 64 * s.val 0x7200 4 + 2 ^ 128 * s.val 0x7200 5
  match s.val 0x7200 1 with
  | 1 => s.beginPatterns ((List.range 144).filter fun c => nbit m c) prog
  | 2 => s.setVet (some ⟨2, prog, [], s.val 0x7200 6, s.val 0x7200 7, false, none⟩) 1
  | 3 =>
    match s.prog prog with
    | some p => s.armReplay prog p
    | none => s
  | _ => s

/-- The effect of an applied item beyond the value it stores; `id` is the session that wrote it. -/
def State.act (s : State) (id : Nat) (x : Staged) : State :=
  let n := ofOctets x.val
  if 0x1100 ≤ x.idx && x.idx < 0x1104 then (if x.sub = 1 then s.applyHport (x.idx - 0x1100) (n == 1) else s)
  else if 0x1200 ≤ x.idx && x.idx < 0x120C then (if x.sub = 1 then s.applyJport (x.idx - 0x1200) (n == 1) else s)
  else
    match x.idx, x.sub with
    | 0x1000, 1 => s.assignNode n
    | 0x1180, 2 => s.applyQueue x.sel (n == 1)
    | 0x4010, _ => s.applyBanks (x.sub - 1) n
    | 0x7000, 6 => { s with acked := max s.acked (n + 1) }
    | 0x7010, 6 => s.updProg x.sel fun p => { p with firstStep := n % 2 ^ 36 }
    | 0x8000, 9 => s.updateData x.val
    | 0x8000, 0xB => if n = 1 then s.updateCheck else s
    | 0x8000, 0xC => if n = 1 then s.restartStandby else s
    | 0x8000, 0xD => if n = 1 then s.handOver else s
    | 0x8000, 0xE => if n = 1 then s.commitSvn else s
    | 0x8000, 0xF => s.revoke n
    | 0x8010, 5 => s.writeNonce id x.val
    | 0x8020, _ => if s.ownerKey then s.setVal 0x8020 2 1 else s
    | 0x9000, 1 => s.applyArm
    | 0x9000, 9 => if n = 1 then s.freeze 2 else s
    | 0x9000, 0xE => if n = 1 then s.startReadout else s
    | 0x9000, 0x11 => if n = 1 then s.endFreeze else s
    | _, _ => s

/-- Apply one item at once. -/
def State.applyNow (s : State) (id : Nat) (x : Staged) : State := (s.store x).act id x

/-! ### Writes of a frame (R507, R514, R515) -/

/-- The items name one value. -/
def Staged.same (x y : Staged) : Bool := x.idx == y.idx && x.sub == y.sub && x.sel == y.sel

/-- Index order (R516). -/
def Staged.before (x y : Staged) : Bool :=
  let k (z : Staged) : Nat := (z.idx * 256 + z.sub) * 2 ^ 16 + z.sel
  decide (k x < k y)

/-- Stage an item, which replaces one that names the same value. -/
def stageItem (x : Staged) : List Staged → List Staged
  | [] => [x]
  | y :: ys => if x.same y then x :: ys else if x.before y then x :: y :: ys else y :: stageItem x ys

/-- The session owns the open transaction. -/
def State.ownsTxn (s : State) (id : Nat) : Bool := match s.txn with | some t => t.owner == id | none => false

/-- Another session's open transaction has staged the value (R515). -/
def State.conflicts (s : State) (id : Nat) (x : Staged) : Bool :=
  match s.txn with
  | some t => t.owner != id && t.items.any x.same
  | none => false

/-- The progress of a WRITE: the state and the view so far; the status, and the item that is refused. -/
structure WriteRun where
  s : State
  v : View
  st : Nat
  at_ : Nat
  deriving DecidableEq, Repr

/-- An item of a frame under the selectors that hold for it. -/
def Item.staged (x : Item) (v : View) (f : Fuse) : Staged := ⟨x.idx, x.sub, v.place f x.idx x.sub, x.val⟩

/-- A later item of the frame names the same value (R507). -/
def replaced (f : Fuse) (x : Staged) : View → List Item → Bool
  | _, [] => false
  | v, y :: ys =>
    x.same (y.staged v f) || replaced f x (if isSelector y.idx y.sub then v.setSel y.idx y.sub (ofOctets y.val) else v) ys

/-- One item of a WRITE: checked, then written or staged. A selector is the session's own and takes its value at once (log 63). -/
def WriteRun.item (r : WriteRun) (own : Bool) (x : Item) (rest : List Item) : WriteRun :=
  let st := r.s.itemStatus r.v own x.idx x.sub x.val
  let y := x.staged r.v r.s.fuse
  let no (n : Nat) : WriteRun := { r with st := n, at_ := x.idx * 256 + x.sub }
  if st ≠ stOk then no st
  else if isSelector x.idx x.sub then { r with v := r.v.setSel x.idx x.sub (ofOctets x.val) }
  else if own then
    match r.s.txn with
    | none => no stNoTxn
    | some t =>
      let l := stageItem y t.items
      if 1024 < l.length then no stTxFull else { r with s := { r.s with txn := some { t with items := l } } }
  else if r.s.conflicts r.v.id y then no stConflict
  else
    let h := r.s.homeStatus y
    if h ≠ stOk then no h
    else if replaced r.s.fuse y r.v rest then r
    else { r with s := r.s.applyNow r.v.id y }

/-- The items of a WRITE in order, up to the first that is refused. -/
def WriteRun.run (r : WriteRun) (own : Bool) : List Item → WriteRun
  | [] => r
  | x :: xs => if r.st ≠ stOk then r else (r.item own x xs).run own xs

/-- The session's selectors become a view's. -/
def State.keepSels (s : State) (v : View) : State :=
  match s.irSess v.id with
  | some i => { s with irs := s.irs.put v.id { i with sels := v.sels } }
  | none => s

/-- A WRITE of items: all or nothing. The state, the status, and the refused item as index × 256 + subindex. -/
def State.writeItems (s : State) (id : Nat) (l : List Item) : State × Nat × Nat :=
  let r := WriteRun.run ⟨s, s.viewOf id, stOk, 0⟩ (s.ownsTxn id) l
  if r.st = stOk then (r.s.keepSels r.v, stOk, 0) else (s, r.st, r.at_)

/-! ### COMMIT (R516 to R519) -/

/-- Locked cannot be selected: a loaded program has several contexts in an engine, or a class 3 end with RES (R422). -/
def State.lockedRefused (s : State) : Bool :=
  s.progs.entries.any fun e =>
    e.2.streams.any (fun t => t.ctx != 0) ||
      e.2.cores.any fun c => (s.core c).me.ends.entries.any fun n => n.2.role != 0 && n.2.cls == 3 && n.2.res

/-- A vetting run can start (R460, R461, R463). -/
def State.vetStatus (s : State) : Nat :=
  let prog := s.val 0x7200 2
  if s.vet.isSome || !s.live then stBusy
  else
    match s.val 0x7200 1 with
    | 2 => if s.recordOk prog (s.val 0x7200 7) then stOk else stInvalid
    | 3 =>
      if (s.prog prog).isSome then stOk else stInvalid
    | _ => stOk

/-- The budget may be set: its range, and the declared use of the loaded programs (R494). -/
def State.budgetOk (s : State) : Bool :=
  let w := s.val 0x2100 1
  decide (600 ≤ w) && decide (w ≤ 1600) && decide (s.declaredSum + allowance ≤ budgetTokens w)

/-- The place of the chip that the entries hold is acceptable (R377). -/
def State.placeStatus (s t : State) (sub : Nat) : Nat :=
  if t.val 0x1010 sub = s.val 0x1010 sub then stOk
  else if !s.progs.entries.isEmpty then stBusy
  else if placeOk (t.val 0x1010 1) (t.val 0x1010 2) t.sizes then stOk
  else stInvalid

/-- RANGE of a home rule is INVALID in a COMMIT (R516). -/
def commitCode (n : Nat) : Nat := if n = stOk || n = stBusy then n else stInvalid

/-- image_signing is Required, and no image key is set (R551). -/
def State.unsigned (s : State) : Bool := s.val 0x8020 1 == 1 && (List.range 4).all fun k => s.val 0x8020 (3 + k) == 0

/-- The status of a staged item at COMMIT: `s` is the state before it, `t` the state with every value stored. -/
def State.commitStatus (s t : State) (x : Staged) : Nat :=
  let n := ofOctets x.val
  let ok (b : Bool) : Nat := if b then stOk else stInvalid
  if 0x1200 ≤ x.idx && x.idx < 0x120C then
    (if x.sub = 1 && n = 0 && !(s.jportOffOk (x.idx - 0x1200)) then stBusy else stOk)
  else
    match x.idx with
    | 0x1010 => if x.sub ≤ 9 then s.placeStatus t x.sub else stOk
    | 0x1180 => if x.sub = 2 && n = 1 then ok (t.queueOk x.sel) else stOk
    | 0x2100 => ok t.budgetOk
    | 0x2200 => if x.sub = 1 && s.powerRefused n then stBusy else stOk
    | 0x3100 => ok (t.regionCommit s.mirrorRow ((x.sub - 1) / 4))
    | 0x4000 => if 5 ≤ x.sub && x.sub ≤ 7 then ok (t.mapWordOk (x.sub - 5)) else stOk
    | 0x4010 => if s.banksOk (x.sub - 1) n then stOk else stBusy
    | 0x6000 => if x.sub = 1 && n = 0 && s.lockedRefused then stBusy else stOk
    | 0x7200 => if x.sub = 1 && n ≠ 0 then t.vetStatus else stOk
    | 0x8020 =>
      if x.sub ≤ 6 then ok !t.unsigned
      else ok !(s.unowned t)
    | 0x9000 => if x.sub = 1 && !t.armOk then (if s.frozen then stBusy else stInvalid) else commitCode (t.homeStatus x)
    | _ => commitCode (t.homeStatus x)

/-- The first failing item of a list, with its status. -/
def State.firstFail (s t : State) : List Staged → Option (Nat × Staged)
  | [] => none
  | x :: xs => if s.commitStatus t x ≠ stOk then some (s.commitStatus t x, x) else s.firstFail t xs

/-- What makes a COMMIT of a list fail first, in index order: a status, and the item as index × 256 + subindex. A COMMIT that leaves image signing Required
without a key fails whatever it stages (R551), and names 0x8020.01 where it stages none of the entries concerned; one with no items completes (R516). -/
def State.failing (s t : State) (l : List Staged) : Option (Nat × Nat) :=
  let key (x : Staged) : Nat := x.idx * 256 + x.sub
  let bare := t.unsigned && !l.isEmpty && !(l.any fun x => x.idx == 0x8020 && decide (x.sub ≤ 6))
  match s.firstFail t l with
  | some (st, x) => if bare && decide (0x802001 < key x) then some (stInvalid, 0x802001) else some (st, key x)
  | none => if bare then some (stInvalid, 0x802001) else none

/-- A staged item names one of an index's subindices. -/
def named (l : List Staged) (idx lo hi : Nat) : Bool := l.any fun x => x.idx == idx && decide (lo ≤ x.sub) && decide (x.sub ≤ hi)

/-- A committed power state is requested; only a COMMIT over the segment ends Standby (R483). -/
def State.commitPower (s : State) (seg : Bool) (l : List Staged) : State :=
  match l.find? fun x => x.idx == 0x2200 && x.sub == 1 with
  | some x => let p := ofOctets x.val; if s.pst = 3 && !seg then s else s.requestPower p
  | none => s

/-- The commit point: every value is stored in one instant, then takes effect (R517, R519). -/
def State.applyAll (s : State) (id : Nat) (seg : Bool) (l : List Staged) : State :=
  let t := l.foldl State.store s
  let t := if t.powered && (List.range 9).any (fun k => t.val 0x1010 (k + 1) != s.val 0x1010 (k + 1)) then t.replace else t
  let t := if named l 0x3100 1 128 then t.applyMirrors s.mirrorRow else t
  let t := if named l 0x4000 5 7 then t.drainCores s.enabledMask else t
  let t := l.foldl (fun t x => t.act id x) t
  let t := if named l 0x7200 1 1 then t.beginVet else t
  t.commitPower seg l

/-- The reset that a commit requests (R484); it follows the response. -/
def resetOf (l : List Staged) : Nat :=
  match l.find? fun x => x.idx == 0x2200 && x.sub == 3 with
  | some x => ofOctets x.val
  | none => 0

/-- A reset by command: 1 core, 2 warm, 3 cold (R496). -/
def State.resetBy (s : State) (kind : Nat) : State :=
  if s.pins.held ≠ 0 then s
  else
    match kind with
    | 1 => s.coreReset
    | 2 => s.warmReset 3
    | 3 => s.coldReset
    | _ => s

/-- COMMIT of the open transaction, which closes. The state, the status, the first failing item as index × 256 + subindex, and the reset that
follows the response. -/
def State.commitTxn (s : State) (id : Nat) (seg : Bool) (l : List Staged) : State × Nat × Nat × Nat :=
  let s := { s with txn := none }
  match s.failing (l.foldl State.store s) l with
  | some (st, k) => ((s.setVal 0xF000 5 st).setVal 0xF000 6 k, st, k, 0)
  | none => (((s.applyAll id seg l).setVal 0xF000 5 stOk).bump 0xF000 7 1, stOk, 0, resetOf l)

/-! ### The commands -/

/-- NODE_ID (R531): the write of a session. -/
def execNodeId (session node : Nat) (s : State) : Result :=
  if s.managed && s.operatorOf session && decide (1 ≤ node) && decide (node ≤ 16) && !(s.conflicts session ⟨0x1000, 1, 0, []⟩) &&
      !(s.ownsTxn session) then
    .next (s.assignNode node)
  else .next s

/-- MODE (R422): a commit of the chip's mode. -/
def execMode (mode : Nat) (s : State) : Result :=
  if s.commits && decide (mode ≤ 1) && (mode == 1 || !s.lockedRefused) then .next (s.setVal 0x6000 1 mode) else .next s

/-- REGISTER_WRITE (R51, R499): a session's write of an entry, as a WRITE of one item; or a write of a core's control block by the host or by
Irair, which is refused with BUSY while a program runs on the core, but for W1C bits and the slip count. -/
def execRegisterWrite (target : RegTarget) (value : Nat) (s : State) : Result :=
  match target with
  | .entry session index sub =>
    match odRow index sub with
    | some r => if s.managed && value < 256 ^ r.octets then .next (s.writeItems session [⟨index, sub, toOctets r.octets value⟩]).1 else .next s
    | none => .next s
  | .control c off =>
    if 144 ≤ c then .fault .noSuchCore
    else if s.fuse.absent.contains c || !(decide (s.pst ≤ 1) && s.powered) || 2 ^ 72 ≤ value then .next s
    else
      let k := s.core c
      let w := BitVec.ofNat 72 value
      match k.hostSticky off w with
      | some k => .next (s.setCore c k)
      | none => if s.stepRuns c then .next { s with out := s.out ++ [.regBusy c off] } else .next (s.setCore c (k.hostSet off w))

end Sys2Proof.Machine
end

