-- ==== Sys2Proof/Machine/Irair.lean ====
section
/-! DEFINITION. Irair: frames, operations, sessions and the transaction's commands (R503 to R518). -/

namespace Sys2Proof.Machine

/-! ### Frames (R503, R504, R512) -/

/-- Operation codes (R506). -/
def irairRead : Nat := 0x01
def irairWrite : Nat := 0x02
def irairDescribe : Nat := 0x03
def irairNext : Nat := 0x04
def irairHello : Nat := 0x10
def irairAuth : Nat := 0x11
def irairClose : Nat := 0x12
def irairBegin : Nat := 0x20
def irairCommit : Nat := 0x21
def irairRollback : Nat := 0x22

/-- A frame reaches an endpoint that answers, at its address and the UDP port of 0x1020.01 (R503, R522, R530, R534, R556). -/
def State.endpointOpen (s : State) : Endpoint → Bool
  | .segment n udp => udp == s.val 0x1020 1 && n == s.val 0x1000 1 && (n != 0xFF || s.pins.chainIn)
  | .inband p vlan addr udp =>
    udp == s.val 0x1020 1 && decide (p < 4) && s.powered && (s.hport p).st == 2 && vlan != 0 && vlan == s.val (0x1100 + p) 6 &&
      addr != 0 && addr == s.val (0x1100 + p) 5 && (p == 0 || !s.frozen)

/-- Octets 0 to 19 of a frame. -/
def headOctets (kind op status flags frag session seq reqId len : Nat) : List (BitVec 8) :=
  toOctets 2 0x4952 ++ toOctets 1 1 ++ toOctets 1 kind ++ toOctets 1 op ++ toOctets 1 status ++ toOctets 1 flags ++ toOctets 1 frag ++
    toOctets 4 session ++ toOctets 4 seq ++ toOctets 2 reqId ++ toOctets 2 len

/-- The tag of a frame under a session key (R512). -/
def frameTag (key : Nat) (octets : List (BitVec 8)) : Nat := Config.kmac key octets 128 1

/-- The frame carries a tag. -/
def tagged (f : Sys2Proof.Frame) : Bool := nbit f.flags 0

/-- A frame that is dropped without response (R504). -/
def badFrame (f : Sys2Proof.Frame) : Bool :=
  f.total != 20 + f.length + (if tagged f then 16 else 0) || decide (f.total < 20) || decide (1232 < f.total) ||
    f.payload.length != f.length || f.magic != 0x4952 || f.kind != 1 || decide (8 ≤ f.flags)

/-- The tag of a request is right. -/
def tagOk (f : Sys2Proof.Frame) (op key : Nat) : Bool :=
  tagged f && f.tag == frameTag key (headOctets 1 op f.status f.flags f.frag f.session f.seq f.reqId f.length ++ f.payload)

/-- A response to a request; `key` is the session's. -/
def respond (f : Sys2Proof.Frame) (op status : Nat) (payload : List (BitVec 8)) (key : Option Nat) : RespFrame :=
  let flags := if key.isSome then 1 else 0
  let h := headOctets 2 op status flags 0 f.session f.seq f.reqId payload.length
  ⟨op, status, flags, 0, f.session, f.seq, f.reqId, payload, match key with | some k => frameTag k (h ++ payload) | none => 0⟩

/-- Frames leave over an endpoint. -/
def State.sendFrames (s : State) (ep : Endpoint) (l : List RespFrame) : State :=
  let s := match ep with
    | .inband p .. => s.bump (0x1100 + p) 0xB l.length
    | .segment .. => s
  { s with out := s.out ++ l.map fun r => .frame ep r }

/-- A frame is dropped and counted (R504, R512, R513). -/
def State.dropFrame (s : State) : State := s.bump 0x1020 5 1

/-- The rate of frames without an open session (R513): `none` is a frame beyond it. -/
def State.unauth (s : State) : Option State :=
  let sec := s.time / 1000000000
  let n := if s.unauthSec = sec then s.unauthN else 0
  if n < s.val 0x1020 4 then some { s with unauthSec := sec, unauthN := n + 1 } else none

/-! ### Timeouts that are due (R505, R509, R513, R518) -/

/-- The transaction of a session rolls back with it. -/
def State.rollbackOf (s : State) (id : Nat) : State := if s.ownsTxn id then { s with txn := none } else s

/-- A session closes (R513, R518). -/
def State.closeIr (s : State) (id : Nat) : State := { s.rollbackOf id with irs := s.irs.erase id }

/-- The open transaction times out (R518). -/
def State.timeoutTxn (s : State) : State :=
  match s.txn with
  | none => s
  | some t =>
    let s := { s with txn := none }.setVal 0xF000 5 stTimeout
    match s.irSess t.owner with
    | some i => { s with irs := s.irs.put t.owner { i with late := true } }
    | none => s

/-- A pending session. -/
def State.irPend (s : State) (id : Nat) : Option IrPend := (s.irp.entries.find? fun e => e.1 == id).map (·.2)

/-- Time limits in ns. -/
def pendNs : Nat := 5000000000
def fragNs : Nat := 1000000000
def txnNs : Nat := 10000000000

/-- How long a session may idle. -/
def State.idleNs (s : State) : Nat := s.val 0x1020 3 * 1000000000

/-- The pending sessions that still stand at a time, without partial messages that are too old. -/
def livePend (m : SMap IrPend) (now : Nat) : SMap IrPend :=
  let l := m.entries.filter fun e => decide (now < e.2.since + pendNs)
  ⟨l.map fun e => (e.1, if e.2.fragAt + fragNs < now then { e.2 with frags := [] } else e.2)⟩

/-- What time has ended goes: pending sessions, partial messages, idle sessions and the transaction. -/
def State.expireIr (s : State) : State :=
  let s := match s.txn with | some t => if t.since + txnNs ≤ s.time then s.timeoutTxn else s | none => s
  let s := { s with irp := livePend s.irp s.time }
  (s.irs.entries.filter fun e => decide (e.2.since + s.idleNs ≤ s.time)).foldl (fun s e => s.closeIr e.1) s

/-! ### Items (R507) -/

/-- `n` items from octets, which they must fill exactly; a READ item has a value only where it names a selector. -/
def parseItems (read : Bool) : Nat → List (BitVec 8) → Option (List Item)
  | 0, l => if l.isEmpty then some [] else none
  | n + 1, l =>
    let idx := ofOctets (l.take 2)
    let sub := ofOctets ((l.drop 2).take 1)
    let len := ofOctets ((l.drop 3).take 2)
    if l.length < 5 + len || (read && len != 0 && !isSelector idx sub) then none
    else (parseItems read n (l.drop (5 + len))).map (⟨idx, sub, (l.drop 5).take len⟩ :: ·)

/-- The items of a payload: COUNT from 1 to 64, then the items. -/
def itemsOf (read : Bool) (l : List (BitVec 8)) : Option (List Item) :=
  match l with
  | [] => none
  | c :: r => if c.toNat = 0 || 64 < c.toNat then none else parseItems read c.toNat r

/-- The octets of an index and a subindex. -/
def nameOctets (n : Nat) : List (BitVec 8) := toOctets 2 (n / 256) ++ toOctets 1 (n % 256)

/-- The response to one READ item. -/
def readAnswer (x : Item) (st : Nat) (val : List (BitVec 8)) : List (BitVec 8) :=
  toOctets 2 x.idx ++ toOctets 1 x.sub ++ toOctets 1 st ++ toOctets 2 val.length ++ val

/-- The staged value of an item, where the session owns one (R507). -/
def State.stagedVal (s : State) (v : View) (x : Item) : Option (List (BitVec 8)) :=
  match s.txn with
  | some t =>
    if v.sess.isSome && t.owner == v.id then (t.items.find? fun y => (x.staged v s.fuse).same y).map (·.val) else none
  | none => none

/-- One READ item: its answer, and the view for the later items (R499, R501, R507). -/
def State.readItem (s : State) (v : View) (staged : Bool) (x : Item) : View × List (BitVec 8) :=
  match s.odRead v x.idx x.sub with
  | none => (v, readAnswer x stNoEntry [])
  | some val =>
    match odRow x.idx x.sub with
    | none => (v, readAnswer x stOk val)
    | some r =>
      let owner := match v.sess with | some i => i.role == 2 | none => false
      if r.acc = .sw && !owner then (v, readAnswer x (if v.sess.isSome then stDenied else stNoSession) [])
      else if x.val.isEmpty then (v, readAnswer x stOk ((if staged then s.stagedVal v x else none).getD val))
      else
        let st := r.typeStatus x.idx x.sub x.val
        if st = stOk then (v.setSel x.idx x.sub (ofOctets x.val), readAnswer x stOk x.val) else (v, readAnswer x st [])

/-- The items of a READ in order. -/
def State.readItems (s : State) (staged : Bool) : View → List Item → List (BitVec 8)
  | _, [] => []
  | v, x :: xs => (s.readItem v staged x).2 ++ s.readItems staged (s.readItem v staged x).1 xs

/-! ### Operations -/

/-- What an operation gives: the state, the status and payload of the response, and the reset that follows it. -/
structure Answer where
  s : State
  st : Nat
  payload : List (BitVec 8)
  reset : Nat
  deriving DecidableEq, Repr

/-- An answer without a reset. -/
def answerWith (s : State) (st : Nat) (payload : List (BitVec 8)) : Answer := ⟨s, st, payload, 0⟩

/-- READ. A response that no frame can hold is refused as malformed (log 64). -/
def State.opRead (s : State) (id : Nat) (f : Sys2Proof.Frame) : Answer :=
  match itemsOf true f.payload with
  | none => answerWith s stMalformed []
  | some l =>
    let r := toOctets 1 l.length ++ s.readItems (nbit f.flags 1) (s.viewOf id) l
    if r.length ≤ (if id = 0 then 1212 else 1196) then answerWith s stOk r else answerWith s stMalformed []

/-- The owner of a transaction that has timed out is told once (R518). -/
def State.tellLate (s : State) (id : Nat) : Option State :=
  match s.irSess id with
  | some i => if i.late then some { s with irs := s.irs.put id { i with late := false } } else none
  | none => none

/-- WRITE. -/
def State.opWrite (s : State) (id : Nat) (f : Sys2Proof.Frame) : Answer :=
  match itemsOf false f.payload with
  | none => answerWith s stMalformed []
  | some l =>
    match s.tellLate id with
    | some t => answerWith t stNoTxn []
    | none =>
      let r := s.writeItems id l
      answerWith r.1 r.2.1 (if r.2.1 = stOk then [] else nameOctets r.2.2)

/-- What DESCRIBE tells of an entry: its type, access, class, default and name (R506); subindex 0 holds the highest subindex of its index (R497). -/
def State.describe (s : State) (idx sub : Nat) : Option (List (BitVec 8)) :=
  match odRow idx sub, highestSub idx with
  | some r, _ => some (Config.describe (ascii r.typ.text) (ascii r.acc.text) (ascii r.cls.text) (odDefault s.fuse idx sub) (ascii r.name))
  | none, some n => if sub = 0 then some (Config.describe (ascii "U8") (ascii "RO") [] n []) else none
  | none, none => none

/-- DESCRIBE (R506). -/
def State.opDescribe (s : State) (f : Sys2Proof.Frame) : Answer :=
  let idx := ofOctets (f.payload.take 2)
  let sub := ofOctets (f.payload.drop 2)
  if f.payload.length ≠ 3 then answerWith s stMalformed []
  else
    match s.describe idx sub with
    | some l => answerWith s stOk l
    | none => answerWith s stNoEntry []

/-- NEXT (R506). -/
def State.opNext (s : State) (f : Sys2Proof.Frame) : Answer :=
  if f.payload.length ≠ 3 then answerWith s stMalformed []
  else
    match nextEntryOf (ofOctets (f.payload.take 2) * 256 + ofOctets (f.payload.drop 2)) with
    | some n => answerWith s stOk (nameOctets n)
    | none => answerWith s stNoEntry []

/-- CLOSE (R513). -/
def State.opClose (s : State) (id : Nat) : Answer := answerWith (s.closeIr id) stOk []

/-- BEGIN (R514). -/
def State.opBegin (s : State) (id : Nat) : Answer :=
  match s.txn with
  | some _ => answerWith s stBusy []
  | none => answerWith { (s.tellLate id).getD s with txn := some ⟨id, s.time, []⟩ } stOk []

/-- COMMIT (R516, R517). -/
def State.opCommit (s : State) (id : Nat) (f : Sys2Proof.Frame) : Answer :=
  match s.tellLate id, s.txn with
  | some t, _ => answerWith t stNoTxn []
  | none, none => answerWith s stNoTxn []
  | none, some t =>
    if t.owner ≠ id then answerWith s stBusy []
    else
      let seg := match f.ep with | .segment .. => true | .inband .. => false
      let r := s.commitTxn id seg t.items
      ⟨r.1, r.2.1, if r.2.1 = stOk then [] else nameOctets r.2.2.1, r.2.2.2⟩

/-- ROLLBACK (R518). -/
def State.opRollback (s : State) (id : Nat) : Answer :=
  match s.tellLate id, s.txn with
  | some t, _ => answerWith t stNoTxn []
  | none, none => answerWith s stNoTxn []
  | none, some t => if t.owner ≠ id then answerWith s stBusy [] else answerWith { s with txn := none } stOk []

/-! ### HELLO and AUTH (R505, R509 to R511) -/

/-- A fresh session ID: nonzero and unlike any that is open or pending. -/
def State.newSession (s : State) : Nat :=
  let used (n : Nat) : Bool := n == 0 || s.irs.entries.any (fun e => e.1 == n) || s.irp.entries.any fun e => e.1 == n
  let cand := (List.range 16).map fun k => (Config.sessionId s.serial + k) % 2 ^ 32
  (cand.find? fun n => !used n).getD 0

/-- The frames of a HELLO response (R505). -/
def helloFrames (f : Sys2Proof.Frame) (payload : List (BitVec 8)) : List RespFrame :=
  let l := chunks 1212 payload
  l.zipIdx.map fun e => ⟨irairHello, stOk, if e.2 + 1 < l.length then 4 else 0, e.2, f.session, f.seq, f.reqId, e.1, 0⟩

/-- The digests that the two signatures cover (R511). -/
def helloDigest (hello : List (BitVec 8)) (nd session ek : Nat) : Nat :=
  Config.sha3 (hello ++ toOctets 32 nd ++ toOctets 4 session ++ toOctets 1184 ek)

/-- HELLO (R509): the state and the frames of the response. -/
def State.opHello (s : State) (f : Sys2Proof.Frame) : State × List RespFrame :=
  let no (st : Nat) : State × List RespFrame := (s, [respond f irairHello st [] none])
  if f.payload.length ≠ 66 then no stMalformed
  else if !(nbit (ofOctets (f.payload.take 2)) 0) then no stVersion
  else if 4 ≤ s.irp.entries.length || 8 ≤ s.irs.entries.length + s.irp.entries.length then no stBusy
  else
    let id := s.newSession
    let nd := Config.nonce s.serial
    let dk := Config.kemKey s.serial
    let ek := Config.kemPublic dk
    let sigd := s.sign (helloDigest f.payload nd id ek)
    ({ s with serial := s.serial + 1, irp := s.irp.put id ⟨s.time, f.payload, nd % 2 ^ 256, ek, dk, sigd, [], 0, 0⟩ },
     helloFrames f (toOctets 1 1 ++ toOctets 32 nd ++ toOctets 4 id ++ toOctets 1184 ek ++ sigd))

/-- The KEY_ID of a pending session's HELLO. -/
def IrPend.keyId (p : IrPend) : Nat := ofOctets (p.hello.drop 34)

/-- The role that a key opens a session with, over the segment or in-band; 0: none (R510, R549). -/
def State.roleOf (s : State) (seg : Bool) (keyId : Nat) : Nat :=
  let enrolled := (List.range 8).foldl (fun r n =>
    if r = 0 && keyId != 0 && s.val 0x8020 (0x10 + 2 * n) == keyId then s.val 0x8020 (0x11 + 2 * n) else r) 0
  if s.val 0x8020 2 = 1 then enrolled
  else if !seg then 0
  else if enrolled = 0 then 2
  else enrolled

/-- The session key of a whole AUTH message that passes its checks (R510, R511). -/
def IrPend.openKey (p : IrPend) (id : Nat) (msg : List (BitVec 8)) : Option Nat :=
  let c := msg.take 1088
  let h2 := Config.sha3 (toOctets 32 (helloDigest p.hello p.nd id p.ek) ++ p.sigd ++ c)
  if Config.dsaVerify (Config.dsaKeyOf p.keyId) h2 (msg.drop 1088) then
    (Config.kemDecaps p.dk c).map fun k => Config.kmac k (toOctets 32 h2) 256 0
  else none

/-- A whole AUTH message: the session opens, or the pending session is discarded. -/
def State.openSession (s : State) (id : Nat) (p : IrPend) (f : Sys2Proof.Frame) (msg : List (BitVec 8)) : State × List RespFrame :=
  let seg := match f.ep with | .segment .. => true | .inband .. => false
  let role := s.roleOf seg p.keyId
  let s := { s with irp := s.irp.erase id }
  match p.openKey id msg with
  | some key =>
    if role = 0 then (s.bump 0x1020 6 1, [respond f irairAuth stAuth [] none])
    else
      ({ s with irs := s.irs.put id ⟨role, key, s.time, 0, 0, [], .empty, 0, [], false⟩ }, [respond f irairAuth stOk [] (some key)])
  | none => (s.bump 0x1020 6 1, [respond f irairAuth stAuth [] none])

/-- Replace a pending session. -/
def State.setPend (s : State) (id : Nat) (p : IrPend) : State := { s with irp := s.irp.put id p }

/-- The AUTH message that a pending session's frames make, once they are all there: up to the last, which has no MORE (R505). -/
def authMessage (l : List AuthFrag) : Option (List (BitVec 8)) :=
  match l.find? fun e => !e.more with
  | none => none
  | some e =>
    if (List.range e.frag).all fun k => l.any fun x => x.frag == k then
      some ((List.range (e.frag + 1)).flatMap fun k => match l.find? fun x => x.frag == k with | some x => x.data | none => [])
    else none

/-- The frames can belong to one message: at most 8, of which only the last has no MORE (R505). -/
def authFits (l : List AuthFrag) : Bool :=
  l.all fun e => decide (e.frag < 8) && (e.more || l.all fun x => decide (x.frag ≤ e.frag))

/-- A frame of an AUTH message (R505): frames of one REQ_ID belong together. A message whose length is not that of R510 is malformed. -/
def State.opAuth (s : State) (id : Nat) (p : IrPend) (f : Sys2Proof.Frame) : State × List RespFrame :=
  let bad : State × List RespFrame := (s.setPend id { p with frags := [] }, [respond f irairAuth stMalformed [] none])
  let q := if p.frags.isEmpty || p.reqId ≠ f.reqId then { p with frags := [], reqId := f.reqId, fragAt := s.time } else p
  let frags := (q.frags.filter fun e => e.frag != f.frag) ++ [⟨f.frag, nbit f.flags 2, f.payload⟩]
  if !(authFits frags) then bad
  else
    match authMessage frags with
    | none => (s.setPend id { q with frags := frags }, [])
    | some msg => if msg.length = 3508 then s.openSession id q f msg else bad

/-! ### The service of a frame -/

/-- An operation's answer within a session, or without one (`id` 0). -/
def State.perform (s : State) (op id : Nat) (f : Sys2Proof.Frame) : Answer :=
  let empty := f.payload.isEmpty
  if f.frag ≠ 0 || nbit f.flags 2 then answerWith s stMalformed []
  else if op = irairRead then s.opRead id f
  else if op = irairDescribe then s.opDescribe f
  else if op = irairNext then s.opNext f
  else if id = 0 then answerWith s stNoSession []
  else if op = irairWrite then s.opWrite id f
  else if !empty then answerWith s stMalformed []
  else if op = irairClose then s.opClose id
  else if op = irairBegin then s.opBegin id
  else if op = irairCommit then s.opCommit id f
  else if op = irairRollback then s.opRollback id
  else answerWith s stMalformed []

/-- A request of an open session (R512): executed in sequence, answered again when repeated, or dropped. -/
def State.inSession (s : State) (op id : Nat) (i : IrSess) (f : Sys2Proof.Frame) : State :=
  if !(tagOk f op i.key) then s.dropFrame
  else if i.lastSeq ≠ 0 && f.seq = i.lastSeq && f.reqId = i.lastReq then s.sendFrames f.ep i.lastResp
  else if f.seq ≠ (i.lastSeq + 1) % 2 ^ 32 then s.dropFrame
  else
    let t := { s with irs := s.irs.put id { i with since := s.time, lastSeq := f.seq, lastReq := f.reqId } }
    let a := t.perform op id f
    let r := [respond f op a.st a.payload (some i.key)]
    let u := match a.s.irSess id with
      | some j => { a.s with irs := a.s.irs.put id { j with lastResp := r } }
      | none => a.s
    (u.sendFrames f.ep r).resetBy a.reset

/-- A request without an open session. -/
def State.noSession (s : State) (op : Nat) (f : Sys2Proof.Frame) : State :=
  match s.irPend f.session with
  | some p =>
    if op = irairAuth then
      let r := s.opAuth f.session p f
      r.1.sendFrames f.ep r.2
    else s.dropFrame
  | none =>
    if f.session ≠ 0 then s.dropFrame
    else if op = irairHello then
      let r := s.opHello f
      r.1.sendFrames f.ep r.2
    else
      let a := s.perform op 0 f
      a.s.sendFrames f.ep [respond f op a.st a.payload none]

/-- A frame that a host port carries is counted there (R381). -/
def State.countFrame (s : State) (ep : Endpoint) : State :=
  match ep with
  | .inband p .. => s.bump (0x1100 + p) 0xA 1
  | .segment .. => s

/-- A request frame arrives (R503 to R513). -/
def State.irair (s : State) (op : Nat) (f : Sys2Proof.Frame) : State :=
  if !s.managed || !(s.endpointOpen f.ep) then s
  else
    let s := (s.countFrame f.ep).expireIr
    if badFrame f then s.dropFrame
    else
      match s.irSess f.session with
      | some i =>
        if f.version = 1 then s.inSession op f.session i f
        else
          match s.unauth with
          | some t => t.sendFrames f.ep [respond f op stVersion [] none]
          | none => s.dropFrame
      | none =>
        match s.unauth with
        | some t => if f.version = 1 then t.noSession op f else t.sendFrames f.ep [respond f op stVersion [] none]
        | none => s.dropFrame

/-! ### The commands -/

/-- READ (R507). -/
def execRead (frame : Sys2Proof.Frame) (s : State) : Result := .next (s.irair irairRead frame)
/-- WRITE (R507). -/
def execWrite (frame : Sys2Proof.Frame) (s : State) : Result := .next (s.irair irairWrite frame)
/-- DESCRIBE (R506). -/
def execDescribe (frame : Sys2Proof.Frame) (s : State) : Result := .next (s.irair irairDescribe frame)
/-- NEXT (R506). -/
def execNext (frame : Sys2Proof.Frame) (s : State) : Result := .next (s.irair irairNext frame)
/-- HELLO (R509). -/
def execHello (frame : Sys2Proof.Frame) (s : State) : Result := .next (s.irair irairHello frame)
/-- AUTH (R510). -/
def execAuth (frame : Sys2Proof.Frame) (s : State) : Result := .next (s.irair irairAuth frame)
/-- CLOSE (R513). -/
def execClose (frame : Sys2Proof.Frame) (s : State) : Result := .next (s.irair irairClose frame)
/-- BEGIN (R514). -/
def execBegin (frame : Sys2Proof.Frame) (s : State) : Result := .next (s.irair irairBegin frame)
/-- COMMIT (R517). -/
def execCommit (frame : Sys2Proof.Frame) (s : State) : Result := .next (s.irair irairCommit frame)
/-- ROLLBACK (R518). -/
def execRollback (frame : Sys2Proof.Frame) (s : State) : Result := .next (s.irair irairRollback frame)

/-- AUTH_FRAGMENT_TIMEOUT (R505): 1 s has passed since the first frame of a partial message. -/
def execAuthFragmentTimeout (session : Nat) (s : State) : Result :=
  match s.irPend session with
  | some p =>
    if p.frags.isEmpty then .next s else .next ((s.waitUntil (p.fragAt + fragNs)).setPend session { p with frags := [] })
  | none => .next s

/-- PENDING_SESSION_EXPIRY (R509). -/
def execPendingSessionExpiry (session : Nat) (s : State) : Result :=
  match s.irPend session with
  | some p =>
    let t := s.waitUntil (p.since + pendNs)
    .next { t with irp := t.irp.erase session }
  | none => .next s

/-- SESSION_IDLE_TIMEOUT (R513). -/
def execSessionIdleTimeout (session : Nat) (s : State) : Result :=
  match s.irSess session with
  | some i => .next ((s.waitUntil (i.since + s.idleNs)).closeIr session)
  | none => .next s

/-- TRANSACTION_TIMEOUT (R518). -/
def execTransactionTimeout (s : State) : Result :=
  match s.txn with
  | some t => .next (s.waitUntil (t.since + txnNs)).timeoutTxn
  | none => .next s

end Sys2Proof.Machine
end

