-- ==== Sys2Proof/Machine/Matrix.lean ====
section
/-! DEFINITION. The matrix-vector engine's instructions (R146 to R154). -/

namespace Sys2Proof.Machine

/-- The instruction word of MCFG (R146). -/
def wordMcfg (ctl : Ctl) (fmt : BitVec 2) (scale : BitVec 9) (lanes : BitVec 7) (estart : BitVec 12) : Word :=
  insWord 3 0x01 ctl (fld fmt.toNat 43 + fld scale.toNat 34 + fld lanes.toNat 27 + fld estart.toNat 15)

/-- MCFG (R146). -/
def execMcfg (core : Nat) (ctl : Ctl) (fmt : BitVec 2) (scale : BitVec 9) (lanes : BitVec 7) (estart : BitVec 12) (s : State) : Result :=
  issueOn s core 3 (wordMcfg ctl fmt scale lanes estart) (fun _ => opMcfg fmt.toNat scale.toNat lanes.toNat estart.toNat)

/-- The instruction word of HLOAD (R147). -/
def wordHload (ctl : Ctl) (v : BitVec 3) (h : BitVec 6) (eoff : BitVec 12) (n : BitVec 12) (soff : BitVec 11) : Word :=
  insWord 3 0x02 ctl (fld v.toNat 42 + fld h.toNat 36 + fld eoff.toNat 24 + fld n.toNat 12 + fld soff.toNat 1)

/-- HLOAD (R147). -/
def execHload (core : Nat) (ctl : Ctl) (v : BitVec 3) (h : BitVec 6) (eoff : BitVec 12) (n : BitVec 12) (soff : BitVec 11) (s : State) : Result :=
  issueOn s core 3 (wordHload ctl v h eoff n soff) (fun _ => opHload v.toNat h.toNat eoff.toNat (n.toNat + 1) soff.toNat)

/-- The instruction word of MSTREAM (R148). -/
def wordMstream (ctl : Ctl) (areg : BitVec 5) (inc : Bool) (vsel : BitVec 3) (solo : Bool) (k : BitVec 12) (rnd : Bool) (emit : Bool) : Word :=
  insWord 3 0x04 ctl (fld areg.toNat 40 + fld (b2n inc) 39 + fld vsel.toNat 36 + fld (b2n solo) 35 + fld k.toNat 23 + fld (b2n rnd) 22 + fld (b2n emit) 21)

/-- MSTREAM (R148). -/
def execMstream (core : Nat) (ctl : Ctl) (areg : BitVec 5) (inc : Bool) (vsel : BitVec 3) (solo : Bool) (k : BitVec 12) (rnd : Bool) (emit : Bool) (s : State) : Result :=
  issueOn s core 3 (wordMstream ctl areg inc vsel solo k rnd emit) (fun env => opMstream env areg.toNat inc vsel.toNat solo (k.toNat + 1) rnd emit)

/-- The instruction word of MPOP (R154). -/
def wordMpop (ctl : Ctl) (h : BitVec 6) (off : BitVec 11) (n : BitVec 7) (rnd : Bool) : Word :=
  insWord 3 0x08 ctl (fld h.toNat 39 + fld off.toNat 28 + fld n.toNat 21 + fld (b2n rnd) 20)

/-- MPOP (R154). -/
def execMpop (core : Nat) (ctl : Ctl) (h : BitVec 6) (off : BitVec 11) (n : BitVec 7) (rnd : Bool) (s : State) : Result :=
  issueOn s core 3 (wordMpop ctl h off n rnd) (fun env => opMpop env h.toNat off.toNat (min n.toNat 95 + 1) rnd)

end Sys2Proof.Machine
end

