-- ==== Sys2Proof/Machine/Message.lean ====
section
/-! DEFINITION. The message engine's instructions (R302 to R317). -/

namespace Sys2Proof.Machine

/-- An instruction that nothing but its wait can hold. -/
def goReady (t : Nat) (x : Cx) : MeGo := .go x t

/-- The instruction word of MSEND (R302). -/
def wordMsend (ctl : Ctl) (endn : BitVec 5) (areg : BitVec 5) (inc : Bool) (len : BitVec 10) (tag : BitVec 8) : Word :=
  insWord 5 0x01 ctl (fld endn.toNat 40 + fld areg.toNat 35 + fld (b2n inc) 34 + fld len.toNat 24 + fld tag.toNat 16)

/-- MSEND (R302). -/
def execMsend (core : Nat) (ctl : Ctl) (endn : BitVec 5) (areg : BitVec 5) (inc : Bool) (len : BitVec 10) (tag : BitVec 8) (s : State) : Result :=
  onCore s core fun env x =>
    x.issueMe env (wordMsend ctl endn areg inc len tag) ((fun env => msendReady env endn.toNat areg.toNat len.toNat) env) ((fun env => opMsend env endn.toNat areg.toNat inc len.toNat tag.toNat) env)

/-- The instruction word of MRECV (R308). -/
def wordMrecv (ctl : Ctl) (mask : BitVec 32) (rot : Bool) (poll : Bool) : Word :=
  insWord 5 0x02 ctl (fld mask.toNat 13 + fld (b2n rot) 12 + fld (b2n poll) 11)

/-- MRECV (R308). -/
def execMrecv (core : Nat) (ctl : Ctl) (mask : BitVec 32) (rot : Bool) (poll : Bool) (s : State) : Result :=
  onCore s core fun env x =>
    x.issueMe env (wordMrecv ctl mask rot poll) ((fun _ => mrecvReady mask.toNat rot poll) env) ((fun _ => opMrecv mask.toNat rot) env)

/-- The instruction word of MREL (R305). -/
def wordMrel (ctl : Ctl) (endn : BitVec 5) : Word :=
  insWord 5 0x03 ctl (fld endn.toNat 40)

/-- MREL (R305). -/
def execMrel (core : Nat) (ctl : Ctl) (endn : BitVec 5) (s : State) : Result :=
  onCore s core fun env x =>
    x.issueMe env (wordMrel ctl endn) ((fun _ => goReady) env) ((fun _ => opMrel endn.toNat) env)

/-- The instruction word of MCOMB (R314). -/
def wordMcomb (ctl : Ctl) (endn : BitVec 5) (areg : BitVec 5) (inc : Bool) (len : BitVec 10) : Word :=
  insWord 5 0x04 ctl (fld endn.toNat 40 + fld areg.toNat 35 + fld (b2n inc) 34 + fld len.toNat 24)

/-- MCOMB (R314). -/
def execMcomb (core : Nat) (ctl : Ctl) (endn : BitVec 5) (areg : BitVec 5) (inc : Bool) (len : BitVec 10) (s : State) : Result :=
  onCore s core fun env x =>
    x.issueMe env (wordMcomb ctl endn areg inc len) ((fun env => mcombReady env endn.toNat areg.toNat len.toNat) env) ((fun env => opMcomb env endn.toNat areg.toNat inc len.toNat) env)

/-- The instruction word of MCTAKE (R317). -/
def wordMctake (ctl : Ctl) (q : BitVec 3) (areg : BitVec 5) (inc : Bool) : Word :=
  insWord 5 0x05 ctl (fld q.toNat 42 + fld areg.toNat 37 + fld (b2n inc) 36)

/-- MCTAKE (R317). -/
def execMctake (core : Nat) (ctl : Ctl) (q : BitVec 3) (areg : BitVec 5) (inc : Bool) (s : State) : Result :=
  onCore s core fun env x =>
    x.issueMe env (wordMctake ctl q areg inc) ((fun _ => goReady) env) ((fun env => opMctake env q.toNat areg.toNat inc) env)

end Sys2Proof.Machine
end

