-- ==== Sys2Proof/Machine/Outer.lean ====
section
/-! DEFINITION. The outer-product engine's instructions (R114 to R129). -/

namespace Sys2Proof.Machine

/-- The instruction word of OSET (R114). -/
def wordOset (ctl : Ctl) (s : BitVec 3) (h : BitVec 6) (orient : Bool) (turn : Bool) (half : Bool) (start : BitVec 16) : Word :=
  insWord 2 0x01 ctl (fld s.toNat 42 + fld h.toNat 36 + fld (b2n orient) 35 + fld (b2n turn) 34 + fld (b2n half) 33 + fld start.toNat 16)

/-- OSET (R114). -/
def execOset (core : Nat) (ctl : Ctl) (s' : BitVec 3) (h : BitVec 6) (orient : Bool) (turn : Bool) (half : Bool) (start : BitVec 16) (s : State) : Result :=
  issueOn s core 2 (wordOset ctl s' h orient turn half start) (fun _ => opOset s'.toNat h.toNat orient turn half start.toNat)

/-- The instruction word of OMASK (R121). -/
def wordOmask (ctl : Ctl) (h : BitVec 6) (off : BitVec 16) : Word :=
  insWord 2 0x02 ctl (fld h.toNat 39 + fld off.toNat 23)

/-- OMASK (R121). -/
def execOmask (core : Nat) (ctl : Ctl) (h : BitVec 6) (off : BitVec 16) (s : State) : Result :=
  issueOn s core 2 (wordOmask ctl h off) (fun _ => opOmask h.toNat off.toNat)

/-- The instruction word of MMA (R119). -/
def wordMma (ctl : Ctl) (sa : BitVec 3) (sb : BitVec 3) (m : BitVec 8) (n : BitVec 8) (k : BitVec 16) (rnd : Bool) (msk : Bool) (swd : BitVec 2) : Word :=
  insWord 2 0x04 ctl (fld sa.toNat 42 + fld sb.toNat 39 + fld m.toNat 31 + fld n.toNat 23 + fld k.toNat 7 + fld (b2n rnd) 6 + fld (b2n msk) 5 + fld swd.toNat 3)

/-- MMA (R119). -/
def execMma (core : Nat) (ctl : Ctl) (sa : BitVec 3) (sb : BitVec 3) (m : BitVec 8) (n : BitVec 8) (k : BitVec 16) (rnd : Bool) (msk : Bool) (swd : BitVec 2) (s : State) : Result :=
  issueOn s core 2 (wordMma ctl sa sb m n k rnd msk swd) (fun _ => opMma sa.toNat sb.toNat m.toNat n.toNat k.toNat rnd msk swd.toNat)

/-- The instruction word of MMAQ (R129). -/
def wordMmaq (ctl : Ctl) (qmask : BitVec 4) (m : BitVec 7) (n : BitVec 7) (k : BitVec 16) (rnd : Bool) (msk : Bool) (swd : BitVec 2) : Word :=
  insWord 2 0x05 ctl (fld qmask.toNat 41 + fld m.toNat 34 + fld n.toNat 27 + fld k.toNat 11 + fld (b2n rnd) 10 + fld (b2n msk) 9 + fld swd.toNat 7)

/-- MMAQ (R129). -/
def execMmaq (core : Nat) (ctl : Ctl) (qmask : BitVec 4) (m : BitVec 7) (n : BitVec 7) (k : BitVec 16) (rnd : Bool) (msk : Bool) (swd : BitVec 2) (s : State) : Result :=
  issueOn s core 2 (wordMmaq ctl qmask m n k rnd msk swd) (fun _ => opMmaq qmask.toNat m.toNat n.toNat k.toNat rnd msk swd.toNat)

/-- The instruction word of SWAP (R123). -/
def wordSwap (ctl : Ctl) (drn : Bool) (clr : Bool) (last : Bool) : Word :=
  insWord 2 0x08 ctl (fld (b2n drn) 44 + fld (b2n clr) 43 + fld (b2n last) 42)

/-- SWAP (R123). -/
def execSwap (core : Nat) (ctl : Ctl) (drn : Bool) (clr : Bool) (last : Bool) (s : State) : Result :=
  issueOn s core 2 (wordSwap ctl drn clr last) (fun _ => opSwap drn clr last)

/-- The instruction word of OCLR (R125). -/
def wordOclr (ctl : Ctl) : Word :=
  insWord 2 0x09 ctl (0)

/-- OCLR (R125). -/
def execOclr (core : Nat) (ctl : Ctl) (s : State) : Result :=
  issueOn s core 2 (wordOclr ctl) (fun _ => opOclr)

/-- The instruction word of PRELOAD (R126). -/
def wordPreload (ctl : Ctl) (h : BitVec 6) (start : BitVec 16) (m : BitVec 8) : Word :=
  insWord 2 0x0A ctl (fld h.toNat 39 + fld start.toNat 23 + fld m.toNat 15)

/-- PRELOAD (R126). -/
def execPreload (core : Nat) (ctl : Ctl) (h : BitVec 6) (start : BitVec 16) (m : BitVec 8) (s : State) : Result :=
  issueOn s core 2 (wordPreload ctl h start m) (fun _ => opPreload h.toNat start.toNat m.toNat)

end Sys2Proof.Machine
end

