-- ==== Sys2Proof/Machine/Pins.lean ====
section
/-! DEFINITION. The chain pin and the test access port (R530, R571, R573). -/

namespace Sys2Proof.Machine

/-- CHAIN_IN (R530): an unassigned chip answers at node 0xFF while the pin is high. -/
def execChainIn (high : Bool) (s : State) : Result := .next { s with pins := { s.pins with chainIn := high } }

/-- IDCODE of a part (R573). -/
def Fuse.idcode (f : Fuse) : Nat := if f.grade132 then 0x14E4A56B else if f.a1 then 0x04E4956B else 0x14E4956B

/-- The bits of a number, the lowest first. -/
def lowBits (n v : Nat) : List Bool := (List.range n).map fun k => nbit v k

/-- The data register that an instruction selects: EXTEST, CLAMP and HIGHZ act only while RESET_N is low, and otherwise as BYPASS; so do
the codes that the TAP does not implement (R573; PRESUMED of IEEE 1149.1 for those, log 65). -/
inductive TapReg where
  | bypass | idcode | boundary
  deriving DecidableEq, Repr

/-- The register an instruction selects. -/
def tapReg (i : Sys2Proof.TapInstr) (resetN : Bool) : TapReg :=
  match i with
  | .idcode => .idcode
  | .samplePreload => .boundary
  | .extest => if resetN then .bypass else .boundary
  | .bypass | .clamp | .highz | .other => .bypass

/-- What the pins that the boundary register covers do: `none` their function, `some []` high impedance, `some l` the levels `l`. -/
def tapDrives (i : Sys2Proof.TapInstr) (resetN : Bool) (boundary : List Bool) : Option (List Bool) :=
  if resetN then none
  else
    match i with
    | .extest | .clamp => some boundary
    | .highz => some []
    | .bypass | .idcode | .samplePreload | .other => none

/-- Bits shifted through a register that holds `l`: those that leave at TDO, and what the register then holds. -/
def shiftThrough (l tdi : List Bool) : List Bool × List Bool := ((l ++ tdi).take tdi.length, (l ++ tdi).drop tdi.length)

/-- TAP_OPERATION (R573): the instruction is loaded, its register captures, and `tdi` is shifted through it. -/
def execTapOperation (instr : Sys2Proof.TapInstr) (tdi : List Bool) (s : State) : Result :=
  if s.pins.held &&& 8 ≠ 0 then .next s
  else
    let p := s.pins
    let cap := match tapReg instr p.resetN with
      | .bypass => [false]
      | .idcode => lowBits 32 s.fuse.idcode
      | .boundary => Config.sampled s.serial
    let r := shiftThrough cap tdi
    let p := { p with tap := instr }
    let p := match tapReg instr p.resetN with
      | .bypass => { p with bypass := r.2.headD false }
      | .idcode => p
      | .boundary => { p with boundary := r.2 }
    .next { s with
      pins := { p with driven := tapDrives instr p.resetN p.boundary }
      serial := s.serial + 1
      out := s.out ++ [.tdo r.1] }

end Sys2Proof.Machine
end

