-- ==== Sys2Proof/Machine/Scalar.lean ====
section
/-! DEFINITION. The instructions every engine has, and the scalar engine's (R77, R82 to R87, R94 to R100). -/

namespace Sys2Proof.Machine

/-- The instruction word of NOP (R77). -/
def wordNop (eng : Nat) (ctl : Ctl) : Word := insWord eng 0x00 ctl 0

/-- NOP (R77). -/
def execNop (core eng : Nat) (ctl : Ctl) (s : State) : Result :=
  if eng < 6 then issueOn s core eng (wordNop eng ctl) (fun _ => opNop) else .fault .noSuchCore

/-- The instruction word of HALT (R77). -/
def wordHalt (eng : Nat) (ctl : Ctl) : Word := insWord eng 0x3E ctl 0

/-- HALT (R87). -/
def execHalt (core eng : Nat) (ctl : Ctl) (s : State) : Result :=
  if eng < 6 then issueOn s core eng (wordHalt eng ctl) (fun _ => opHalt) else .fault .noSuchCore

/-- The instruction word of LOOP (R82). -/
def wordLoop (eng : Nat) (ctl : Ctl) (lc : BitVec 3) (body : BitVec 9) : Word :=
  insWord eng 0x3F ctl (fld lc.toNat 42 + fld body.toNat 33)

/-- LOOP (R83). -/
def execLoop (core eng : Nat) (ctl : Ctl) (lc : BitVec 3) (body : BitVec 9) (s : State) : Result :=
  if eng < 6 then issueOn s core eng (wordLoop eng ctl lc body) (fun _ => opLoop lc body) else .fault .noSuchCore

/-- The instruction word of ADD (R96). -/
def wordAdd (ctl : Ctl) (d : BitVec 5) (a : BitVec 5) (b : BitVec 5) : Word :=
  insWord 0 0x01 ctl (fld d.toNat 40 + fld a.toNat 35 + fld b.toNat 30)

/-- ADD (R96). -/
def execAdd (core : Nat) (ctl : Ctl) (d : BitVec 5) (a : BitVec 5) (b : BitVec 5) (s : State) : Result :=
  issueOn s core 0 (wordAdd ctl d a b) (fun _ => seBin addW d a b)

/-- The instruction word of SUB (R96). -/
def wordSub (ctl : Ctl) (d : BitVec 5) (a : BitVec 5) (b : BitVec 5) : Word :=
  insWord 0 0x02 ctl (fld d.toNat 40 + fld a.toNat 35 + fld b.toNat 30)

/-- SUB (R96). -/
def execSub (core : Nat) (ctl : Ctl) (d : BitVec 5) (a : BitVec 5) (b : BitVec 5) (s : State) : Result :=
  issueOn s core 0 (wordSub ctl d a b) (fun _ => seBin subW d a b)

/-- The instruction word of AND (R96). -/
def wordAnd (ctl : Ctl) (d : BitVec 5) (a : BitVec 5) (b : BitVec 5) : Word :=
  insWord 0 0x03 ctl (fld d.toNat 40 + fld a.toNat 35 + fld b.toNat 30)

/-- AND (R96). -/
def execAnd (core : Nat) (ctl : Ctl) (d : BitVec 5) (a : BitVec 5) (b : BitVec 5) (s : State) : Result :=
  issueOn s core 0 (wordAnd ctl d a b) (fun _ => seBin andW d a b)

/-- The instruction word of OR (R96). -/
def wordOr (ctl : Ctl) (d : BitVec 5) (a : BitVec 5) (b : BitVec 5) : Word :=
  insWord 0 0x04 ctl (fld d.toNat 40 + fld a.toNat 35 + fld b.toNat 30)

/-- OR (R96). -/
def execOr (core : Nat) (ctl : Ctl) (d : BitVec 5) (a : BitVec 5) (b : BitVec 5) (s : State) : Result :=
  issueOn s core 0 (wordOr ctl d a b) (fun _ => seBin orW d a b)

/-- The instruction word of XOR (R96). -/
def wordXor (ctl : Ctl) (d : BitVec 5) (a : BitVec 5) (b : BitVec 5) : Word :=
  insWord 0 0x05 ctl (fld d.toNat 40 + fld a.toNat 35 + fld b.toNat 30)

/-- XOR (R96). -/
def execXor (core : Nat) (ctl : Ctl) (d : BitVec 5) (a : BitVec 5) (b : BitVec 5) (s : State) : Result :=
  issueOn s core 0 (wordXor ctl d a b) (fun _ => seBin xorW d a b)

/-- The instruction word of SHL (R96). -/
def wordShl (ctl : Ctl) (d : BitVec 5) (a : BitVec 5) (b : BitVec 5) : Word :=
  insWord 0 0x06 ctl (fld d.toNat 40 + fld a.toNat 35 + fld b.toNat 30)

/-- SHL (R96). -/
def execShl (core : Nat) (ctl : Ctl) (d : BitVec 5) (a : BitVec 5) (b : BitVec 5) (s : State) : Result :=
  issueOn s core 0 (wordShl ctl d a b) (fun _ => seBin (fun a b => shlW a (shiftAmt b)) d a b)

/-- The instruction word of SHR (R96). -/
def wordShr (ctl : Ctl) (d : BitVec 5) (a : BitVec 5) (b : BitVec 5) : Word :=
  insWord 0 0x07 ctl (fld d.toNat 40 + fld a.toNat 35 + fld b.toNat 30)

/-- SHR (R96). -/
def execShr (core : Nat) (ctl : Ctl) (d : BitVec 5) (a : BitVec 5) (b : BitVec 5) (s : State) : Result :=
  issueOn s core 0 (wordShr ctl d a b) (fun _ => seBin (fun a b => shrW a (shiftAmt b)) d a b)

/-- The instruction word of SRA (R96). -/
def wordSra (ctl : Ctl) (d : BitVec 5) (a : BitVec 5) (b : BitVec 5) : Word :=
  insWord 0 0x08 ctl (fld d.toNat 40 + fld a.toNat 35 + fld b.toNat 30)

/-- SRA (R96). -/
def execSra (core : Nat) (ctl : Ctl) (d : BitVec 5) (a : BitVec 5) (b : BitVec 5) (s : State) : Result :=
  issueOn s core 0 (wordSra ctl d a b) (fun _ => seBin (fun a b => sraW a (shiftAmt b)) d a b)

/-- The instruction word of CMPLT (R96). -/
def wordCmplt (ctl : Ctl) (d : BitVec 5) (a : BitVec 5) (b : BitVec 5) : Word :=
  insWord 0 0x09 ctl (fld d.toNat 40 + fld a.toNat 35 + fld b.toNat 30)

/-- CMPLT (R96). -/
def execCmplt (core : Nat) (ctl : Ctl) (d : BitVec 5) (a : BitVec 5) (b : BitVec 5) (s : State) : Result :=
  issueOn s core 0 (wordCmplt ctl d a b) (fun _ => seBin cmpltW d a b)

/-- The instruction word of CMPLTU (R96). -/
def wordCmpltu (ctl : Ctl) (d : BitVec 5) (a : BitVec 5) (b : BitVec 5) : Word :=
  insWord 0 0x0A ctl (fld d.toNat 40 + fld a.toNat 35 + fld b.toNat 30)

/-- CMPLTU (R96). -/
def execCmpltu (core : Nat) (ctl : Ctl) (d : BitVec 5) (a : BitVec 5) (b : BitVec 5) (s : State) : Result :=
  issueOn s core 0 (wordCmpltu ctl d a b) (fun _ => seBin cmpltuW d a b)

/-- The instruction word of CMPEQ (R96). -/
def wordCmpeq (ctl : Ctl) (d : BitVec 5) (a : BitVec 5) (b : BitVec 5) : Word :=
  insWord 0 0x0B ctl (fld d.toNat 40 + fld a.toNat 35 + fld b.toNat 30)

/-- CMPEQ (R96). -/
def execCmpeq (core : Nat) (ctl : Ctl) (d : BitVec 5) (a : BitVec 5) (b : BitVec 5) (s : State) : Result :=
  issueOn s core 0 (wordCmpeq ctl d a b) (fun _ => seBin cmpeqW d a b)

/-- The instruction word of MUL (R96). -/
def wordMul (ctl : Ctl) (d : BitVec 5) (a : BitVec 5) (b : BitVec 5) : Word :=
  insWord 0 0x0C ctl (fld d.toNat 40 + fld a.toNat 35 + fld b.toNat 30)

/-- MUL (R96). -/
def execMul (core : Nat) (ctl : Ctl) (d : BitVec 5) (a : BitVec 5) (b : BitVec 5) (s : State) : Result :=
  issueOn s core 0 (wordMul ctl d a b) (fun _ => opMul d a b)

/-- The instruction word of ADDI (R96). -/
def wordAddi (ctl : Ctl) (d : BitVec 5) (a : BitVec 5) (imm : BitVec 35) : Word :=
  insWord 0 0x10 ctl (fld d.toNat 40 + fld a.toNat 35 + imm.toNat)

/-- ADDI (R96). -/
def execAddi (core : Nat) (ctl : Ctl) (d : BitVec 5) (a : BitVec 5) (imm : BitVec 35) (s : State) : Result :=
  issueOn s core 0 (wordAddi ctl d a imm) (fun _ => seUn (fun w => addW w (imm.signExtend 72)) d a)

/-- The instruction word of ANDI (R96). -/
def wordAndi (ctl : Ctl) (d : BitVec 5) (a : BitVec 5) (imm : BitVec 35) : Word :=
  insWord 0 0x11 ctl (fld d.toNat 40 + fld a.toNat 35 + imm.toNat)

/-- ANDI (R96). -/
def execAndi (core : Nat) (ctl : Ctl) (d : BitVec 5) (a : BitVec 5) (imm : BitVec 35) (s : State) : Result :=
  issueOn s core 0 (wordAndi ctl d a imm) (fun _ => seUn (fun w => andW w (imm.signExtend 72)) d a)

/-- The instruction word of SHLI (R96). -/
def wordShli (ctl : Ctl) (d : BitVec 5) (a : BitVec 5) (imm : BitVec 7) : Word :=
  insWord 0 0x12 ctl (fld d.toNat 40 + fld a.toNat 35 + imm.toNat)

/-- SHLI (R96). -/
def execShli (core : Nat) (ctl : Ctl) (d : BitVec 5) (a : BitVec 5) (imm : BitVec 7) (s : State) : Result :=
  issueOn s core 0 (wordShli ctl d a imm) (fun _ => seUn (fun w => shlW w imm.toNat) d a)

/-- The instruction word of SHRI (R96). -/
def wordShri (ctl : Ctl) (d : BitVec 5) (a : BitVec 5) (imm : BitVec 7) : Word :=
  insWord 0 0x13 ctl (fld d.toNat 40 + fld a.toNat 35 + imm.toNat)

/-- SHRI (R96). -/
def execShri (core : Nat) (ctl : Ctl) (d : BitVec 5) (a : BitVec 5) (imm : BitVec 7) (s : State) : Result :=
  issueOn s core 0 (wordShri ctl d a imm) (fun _ => seUn (fun w => shrW w imm.toNat) d a)

/-- The instruction word of MOVI (R96). -/
def wordMovi (ctl : Ctl) (d : BitVec 5) (imm : BitVec 40) : Word :=
  insWord 0 0x14 ctl (fld d.toNat 40 + imm.toNat)

/-- MOVI (R96). -/
def execMovi (core : Nat) (ctl : Ctl) (d : BitVec 5) (imm : BitVec 40) (s : State) : Result :=
  issueOn s core 0 (wordMovi ctl d imm) (fun _ => opMovi d imm)

/-- The instruction word of MOVH (R96). -/
def wordMovh (ctl : Ctl) (d : BitVec 5) (imm : BitVec 32) : Word :=
  insWord 0 0x15 ctl (fld d.toNat 40 + imm.toNat)

/-- MOVH (R96). -/
def execMovh (core : Nat) (ctl : Ctl) (d : BitVec 5) (imm : BitVec 32) (s : State) : Result :=
  issueOn s core 0 (wordMovh ctl d imm) (fun _ => opMovh d imm)

/-- The instruction word of LD (R97). -/
def wordLd (ctl : Ctl) (d : BitVec 5) (a : BitVec 5) (imm : BitVec 35) : Word :=
  insWord 0 0x20 ctl (fld d.toNat 40 + fld a.toNat 35 + imm.toNat)

/-- LD (R97). -/
def execLd (core : Nat) (ctl : Ctl) (d : BitVec 5) (a : BitVec 5) (imm : BitVec 35) (s : State) : Result :=
  issueOn s core 0 (wordLd ctl d a imm) (fun env => opLd env d a imm)

/-- The instruction word of ST (R97). -/
def wordSt (ctl : Ctl) (d : BitVec 5) (a : BitVec 5) (imm : BitVec 35) : Word :=
  insWord 0 0x21 ctl (fld d.toNat 40 + fld a.toNat 35 + imm.toNat)

/-- ST (R97). -/
def execSt (core : Nat) (ctl : Ctl) (d : BitVec 5) (a : BitVec 5) (imm : BitVec 35) (s : State) : Result :=
  issueOn s core 0 (wordSt ctl d a imm) (fun env => opSt env d a imm)

/-- The instruction word of CWR (R98). -/
def wordCwr (ctl : Ctl) (d : BitVec 5) (a : BitVec 5) (imm : BitVec 35) : Word :=
  insWord 0 0x28 ctl (fld d.toNat 40 + fld a.toNat 35 + imm.toNat)

/-- CWR (R98). -/
def execCwr (core : Nat) (ctl : Ctl) (d : BitVec 5) (a : BitVec 5) (imm : BitVec 35) (s : State) : Result :=
  issueOn s core 0 (wordCwr ctl d a imm) (fun _ => opCwr d a imm)

/-- The instruction word of CWW (R98). -/
def wordCww (ctl : Ctl) (d : BitVec 5) (a : BitVec 5) (imm : BitVec 35) : Word :=
  insWord 0 0x29 ctl (fld d.toNat 40 + fld a.toNat 35 + imm.toNat)

/-- CWW (R98). -/
def execCww (core : Nat) (ctl : Ctl) (d : BitVec 5) (a : BitVec 5) (imm : BitVec 35) (s : State) : Result :=
  issueOn s core 0 (wordCww ctl d a imm) (fun _ => opCww d a imm)

/-- The instruction word of STEP (R100). -/
def wordStep (ctl : Ctl) : Word :=
  insWord 0 0x30 ctl (0)

/-- STEP (R100). -/
def execStep (core : Nat) (ctl : Ctl) (s : State) : Result :=
  issueOn s core 0 (wordStep ctl) (fun _ => opStep)

end Sys2Proof.Machine
end

