-- ==== Sys2Proof/Machine/Transfer.lean ====
section
/-! DEFINITION. The transfer engine's instructions (R102, R271, R272, R283, R285). -/

namespace Sys2Proof.Machine

/-- The instruction word of COPY (R102). -/
def wordCopy (ctl : Ctl) (dst : BitVec 5) (src : BitVec 5) (dring : Bool) (incd : Bool) (incs : Bool) (size : BitVec 26) : Word :=
  insWord 1 0x01 ctl (fld dst.toNat 40 + fld src.toNat 35 + fld (b2n dring) 34 + fld (b2n incd) 33 + fld (b2n incs) 32 + size.toNat)

/-- COPY (R102). -/
def execCopy (core : Nat) (ctl : Ctl) (dst : BitVec 5) (src : BitVec 5) (dring : Bool) (incd : Bool) (incs : Bool) (size : BitVec 26) (s : State) : Result :=
  issueOn s core 1 (wordCopy ctl dst src dring incd incs size) (fun env => opCopy env dst.toNat src.toNat dring incd incs size.toNat)

/-- The instruction word of LOADQ (R271). -/
def wordLoadq (ctl : Ctl) (src : BitVec 5) (queue : BitVec 4) (incs : Bool) (size : BitVec 11) : Word :=
  insWord 1 0x02 ctl (fld src.toNat 40 + fld queue.toNat 36 + fld (b2n incs) 35 + size.toNat)

/-- LOADQ (R271). -/
def execLoadq (core : Nat) (ctl : Ctl) (src : BitVec 5) (queue : BitVec 4) (incs : Bool) (size : BitVec 11) (s : State) : Result :=
  issueOn s core 1 (wordLoadq ctl src queue incs size) (fun env => opLoadq env src.toNat queue.toNat incs size.toNat)

/-- The instruction word of STORE (R102). -/
def wordStore (ctl : Ctl) (dst : BitVec 5) (src : BitVec 5) (incd : Bool) (incs : Bool) (size : BitVec 26) : Word :=
  insWord 1 0x03 ctl (fld dst.toNat 40 + fld src.toNat 35 + fld (b2n incd) 34 + fld (b2n incs) 33 + size.toNat)

/-- STORE (R102). -/
def execStore (core : Nat) (ctl : Ctl) (dst : BitVec 5) (src : BitVec 5) (incd : Bool) (incs : Bool) (size : BitVec 26) (s : State) : Result :=
  issueOn s core 1 (wordStore ctl dst src incd incs size) (fun env => opStore env dst.toNat src.toNat incd incs size.toNat)

/-- The instruction word of MCAST (R283). -/
def wordMcast (ctl : Ctl) (dst : BitVec 5) (src : BitVec 5) (mset : BitVec 6) (size : BitVec 26) : Word :=
  insWord 1 0x04 ctl (fld dst.toNat 40 + fld src.toNat 35 + fld mset.toNat 29 + size.toNat)

/-- MCAST (R283). -/
def execMcast (core : Nat) (ctl : Ctl) (dst : BitVec 5) (src : BitVec 5) (mset : BitVec 6) (size : BitVec 26) (s : State) : Result :=
  issueOn s core 1 (wordMcast ctl dst src mset size) (fun env => opMcast env dst.toNat src.toNat mset.toNat size.toNat)

/-- The instruction word of LIGHT (R285). -/
def wordLight (ctl : Ctl) (src : BitVec 5) (dcore : BitVec 8) (size : BitVec 6) : Word :=
  insWord 1 0x05 ctl (fld src.toNat 40 + fld dcore.toNat 32 + fld size.toNat 26)

/-- LIGHT (R285). -/
def execLight (core : Nat) (ctl : Ctl) (src : BitVec 5) (dcore : BitVec 8) (size : BitVec 6) (s : State) : Result :=
  issueOn s core 1 (wordLight ctl src dcore size) (fun env => opLight env src.toNat dcore.toNat size.toNat)

/-- The instruction word of QLAND (R272). -/
def wordQland (ctl : Ctl) (dst : BitVec 5) (queue : BitVec 4) (dring : Bool) (incd : Bool) : Word :=
  insWord 1 0x06 ctl (fld dst.toNat 40 + fld queue.toNat 36 + fld (b2n dring) 35 + fld (b2n incd) 34)

/-- QLAND (R272). -/
def execQland (core : Nat) (ctl : Ctl) (dst : BitVec 5) (queue : BitVec 4) (dring : Bool) (incd : Bool) (s : State) : Result :=
  issueOn s core 1 (wordQland ctl dst queue dring incd) (fun env => opQland env dst.toNat queue.toNat dring incd)

end Sys2Proof.Machine
end

