-- ==== Sys2Proof/Machine/Vector.lean ====
section
/-! DEFINITION. The vector engine's instructions (R171 to R190, R208). -/

namespace Sys2Proof.Machine

/-- The instruction word of VCFG (R171). -/
def wordVcfg (ctl : Ctl) (fmt : BitVec 2) (rnd : Bool) (msk : Bool) (mslot : BitVec 11) (len : BitVec 16) (lcnt : Bool) (seg : BitVec 12) : Word :=
  insWord 4 0x01 ctl (fld fmt.toNat 43 + fld (b2n rnd) 42 + fld (b2n msk) 41 + fld mslot.toNat 30 + fld len.toNat 14 + fld (b2n lcnt) 13 + fld seg.toNat 1)

/-- VCFG (R171). -/
def execVcfg (core : Nat) (ctl : Ctl) (fmt : BitVec 2) (rnd : Bool) (msk : Bool) (mslot : BitVec 11) (len : BitVec 16) (lcnt : Bool) (seg : BitVec 12) (s : State) : Result :=
  issueOn s core 4 (wordVcfg ctl fmt rnd msk mslot len lcnt seg) (fun _ => opVcfg fmt.toNat rnd msk mslot.toNat len.toNat lcnt seg.toNat)

/-- The instruction word of VPTR (R172). -/
def wordVptr (ctl : Ctl) (p : BitVec 3) (h : BitVec 6) (orient : Bool) (off : BitVec 23) : Word :=
  insWord 4 0x02 ctl (fld p.toNat 42 + fld h.toNat 36 + fld (b2n orient) 35 + fld off.toNat 12)

/-- VPTR (R172). -/
def execVptr (core : Nat) (ctl : Ctl) (p : BitVec 3) (h : BitVec 6) (orient : Bool) (off : BitVec 23) (s : State) : Result :=
  issueOn s core 4 (wordVptr ctl p h orient off) (fun _ => opVptr p.toNat h.toNat orient off.toNat)

/-- The instruction word of VLD (R174). -/
def wordVld (ctl : Ctl) (slot : BitVec 11) (ptr : BitVec 3) (inc : Bool) : Word :=
  insWord 4 0x04 ctl (fld slot.toNat 34 + fld ptr.toNat 31 + fld (b2n inc) 30)

/-- VLD (R174). -/
def execVld (core : Nat) (ctl : Ctl) (slot : BitVec 11) (ptr : BitVec 3) (inc : Bool) (s : State) : Result :=
  issueOn s core 4 (wordVld ctl slot ptr inc) (fun _ => opVld slot.toNat ptr.toNat inc)

/-- The instruction word of VST (R174). -/
def wordVst (ctl : Ctl) (slot : BitVec 11) (ptr : BitVec 3) (inc : Bool) (sen : Bool) (sb : BitVec 4) : Word :=
  insWord 4 0x05 ctl (fld slot.toNat 34 + fld ptr.toNat 31 + fld (b2n inc) 30 + fld (b2n sen) 29 + fld sb.toNat 25)

/-- VST (R174). -/
def execVst (core : Nat) (ctl : Ctl) (slot : BitVec 11) (ptr : BitVec 3) (inc : Bool) (sen : Bool) (sb : BitVec 4) (s : State) : Result :=
  issueOn s core 4 (wordVst ctl slot ptr inc sen sb) (fun _ => opVst slot.toNat ptr.toNat inc sen sb.toNat)

/-- The instruction word of TQRD (R175). -/
def wordTqrd (ctl : Ctl) (slot : BitVec 11) (row : BitVec 8) (nrows : BitVec 8) (ent : BitVec 2) (rel : Bool) : Word :=
  insWord 4 0x06 ctl (fld slot.toNat 34 + fld row.toNat 26 + fld nrows.toNat 18 + fld ent.toNat 16 + fld (b2n rel) 15)

/-- TQRD (R175). -/
def execTqrd (core : Nat) (ctl : Ctl) (slot : BitVec 11) (row : BitVec 8) (nrows : BitVec 8) (ent : BitVec 2) (rel : Bool) (s : State) : Result :=
  issueOn s core 4 (wordTqrd ctl slot row nrows ent rel) (fun _ => opTqrd slot.toNat row.toNat (nrows.toNat + 1) ent.toNat rel)

/-- The instruction word of RQRD (R175). -/
def wordRqrd (ctl : Ctl) (slot : BitVec 11) (ent : BitVec 3) (rel : Bool) : Word :=
  insWord 4 0x07 ctl (fld slot.toNat 34 + fld ent.toNat 31 + fld (b2n rel) 30)

/-- RQRD (R175). -/
def execRqrd (core : Nat) (ctl : Ctl) (slot : BitVec 11) (ent : BitVec 3) (rel : Bool) (s : State) : Result :=
  issueOn s core 4 (wordRqrd ctl slot ent rel) (fun _ => opRqrd slot.toNat ent.toNat rel)

/-- The instruction word of TBW (R176). -/
def wordTbw (ctl : Ctl) (slot : BitVec 11) (half : Bool) (row : BitVec 8) (nrows : BitVec 8) (tf : BitVec 2) (sc : BitVec 9) (tag : Bool) (sen : Bool) (sb : BitVec 4) : Word :=
  insWord 4 0x08 ctl (fld slot.toNat 34 + fld (b2n half) 33 + fld row.toNat 25 + fld nrows.toNat 17 + fld tf.toNat 15 + fld sc.toNat 6 + fld (b2n tag) 5 + fld (b2n sen) 4 + sb.toNat)

/-- TBW (R176). -/
def execTbw (core : Nat) (ctl : Ctl) (slot : BitVec 11) (half : Bool) (row : BitVec 8) (nrows : BitVec 8) (tf : BitVec 2) (sc : BitVec 9) (tag : Bool) (sen : Bool) (sb : BitVec 4) (s : State) : Result :=
  issueOn s core 4 (wordTbw ctl slot half row nrows tf sc tag sen sb) (fun _ => opTbw slot.toNat half row.toNat (nrows.toNat + 1) tf.toNat sc.toNat tag sen sb.toNat)

/-- The instruction word of VADD (R177). -/
def wordVadd (ctl : Ctl) (d : BitVec 11) (a : BitVec 11) (b : BitVec 11) (bseg : Bool) : Word :=
  insWord 4 0x10 ctl (fld d.toNat 34 + fld a.toNat 23 + fld b.toNat 12 + b2n bseg)

/-- VADD (R177). -/
def execVadd (core : Nat) (ctl : Ctl) (d : BitVec 11) (a : BitVec 11) (b : BitVec 11) (bseg : Bool) (s : State) : Result :=
  issueOn s core 4 (wordVadd ctl d a b bseg) (fun _ => opBin .add d.toNat a.toNat b.toNat bseg)

/-- The instruction word of VSUB (R177). -/
def wordVsub (ctl : Ctl) (d : BitVec 11) (a : BitVec 11) (b : BitVec 11) (bseg : Bool) : Word :=
  insWord 4 0x11 ctl (fld d.toNat 34 + fld a.toNat 23 + fld b.toNat 12 + b2n bseg)

/-- VSUB (R177). -/
def execVsub (core : Nat) (ctl : Ctl) (d : BitVec 11) (a : BitVec 11) (b : BitVec 11) (bseg : Bool) (s : State) : Result :=
  issueOn s core 4 (wordVsub ctl d a b bseg) (fun _ => opBin .sub d.toNat a.toNat b.toNat bseg)

/-- The instruction word of VMUL (R177). -/
def wordVmul (ctl : Ctl) (d : BitVec 11) (a : BitVec 11) (b : BitVec 11) (bseg : Bool) : Word :=
  insWord 4 0x12 ctl (fld d.toNat 34 + fld a.toNat 23 + fld b.toNat 12 + b2n bseg)

/-- VMUL (R177). -/
def execVmul (core : Nat) (ctl : Ctl) (d : BitVec 11) (a : BitVec 11) (b : BitVec 11) (bseg : Bool) (s : State) : Result :=
  issueOn s core 4 (wordVmul ctl d a b bseg) (fun _ => opBin .mul d.toNat a.toNat b.toNat bseg)

/-- The instruction word of VMAX (R177). -/
def wordVmax (ctl : Ctl) (d : BitVec 11) (a : BitVec 11) (b : BitVec 11) (bseg : Bool) : Word :=
  insWord 4 0x13 ctl (fld d.toNat 34 + fld a.toNat 23 + fld b.toNat 12 + b2n bseg)

/-- VMAX (R177). -/
def execVmax (core : Nat) (ctl : Ctl) (d : BitVec 11) (a : BitVec 11) (b : BitVec 11) (bseg : Bool) (s : State) : Result :=
  issueOn s core 4 (wordVmax ctl d a b bseg) (fun _ => opBin .max d.toNat a.toNat b.toNat bseg)

/-- The instruction word of VMIN (R177). -/
def wordVmin (ctl : Ctl) (d : BitVec 11) (a : BitVec 11) (b : BitVec 11) (bseg : Bool) : Word :=
  insWord 4 0x14 ctl (fld d.toNat 34 + fld a.toNat 23 + fld b.toNat 12 + b2n bseg)

/-- VMIN (R177). -/
def execVmin (core : Nat) (ctl : Ctl) (d : BitVec 11) (a : BitVec 11) (b : BitVec 11) (bseg : Bool) (s : State) : Result :=
  issueOn s core 4 (wordVmin ctl d a b bseg) (fun _ => opBin .min d.toNat a.toNat b.toNat bseg)

/-- The instruction word of VFMA (R177). -/
def wordVfma (ctl : Ctl) (d : BitVec 11) (a : BitVec 11) (b : BitVec 11) (c : BitVec 11) (bseg : Bool) : Word :=
  insWord 4 0x15 ctl (fld d.toNat 34 + fld a.toNat 23 + fld b.toNat 12 + fld c.toNat 1 + b2n bseg)

/-- VFMA (R177). -/
def execVfma (core : Nat) (ctl : Ctl) (d : BitVec 11) (a : BitVec 11) (b : BitVec 11) (c : BitVec 11) (bseg : Bool) (s : State) : Result :=
  issueOn s core 4 (wordVfma ctl d a b c bseg) (fun _ => opVfma d.toNat a.toNat b.toNat c.toNat bseg)

/-- The instruction word of VCMP (R177). -/
def wordVcmp (ctl : Ctl) (d : BitVec 11) (a : BitVec 11) (b : BitVec 11) (cond : BitVec 2) (bseg : Bool) : Word :=
  insWord 4 0x16 ctl (fld d.toNat 34 + fld a.toNat 23 + fld b.toNat 12 + fld cond.toNat 1 + b2n bseg)

/-- VCMP (R177). -/
def execVcmp (core : Nat) (ctl : Ctl) (d : BitVec 11) (a : BitVec 11) (b : BitVec 11) (cond : BitVec 2) (bseg : Bool) (s : State) : Result :=
  issueOn s core 4 (wordVcmp ctl d a b cond bseg) (fun _ => opBin (.cmp cond.toNat) d.toNat a.toNat b.toNat bseg)

/-- The instruction word of VSEL (R177). -/
def wordVsel (ctl : Ctl) (d : BitVec 11) (a : BitVec 11) (b : BitVec 11) (c : BitVec 11) (bseg : Bool) : Word :=
  insWord 4 0x17 ctl (fld d.toNat 34 + fld a.toNat 23 + fld b.toNat 12 + fld c.toNat 1 + b2n bseg)

/-- VSEL (R177). -/
def execVsel (core : Nat) (ctl : Ctl) (d : BitVec 11) (a : BitVec 11) (b : BitVec 11) (c : BitVec 11) (bseg : Bool) (s : State) : Result :=
  issueOn s core 4 (wordVsel ctl d a b c bseg) (fun _ => opVsel d.toNat a.toNat b.toNat c.toNat bseg)

/-- The instruction word of VMOV (R177). -/
def wordVmov (ctl : Ctl) (d : BitVec 11) (a : BitVec 11) (b : BitVec 11) (bseg : Bool) : Word :=
  insWord 4 0x18 ctl (fld d.toNat 34 + fld a.toNat 23 + fld b.toNat 12 + b2n bseg)

/-- VMOV (R177). -/
def execVmov (core : Nat) (ctl : Ctl) (d : BitVec 11) (a : BitVec 11) (b : BitVec 11) (bseg : Bool) (s : State) : Result :=
  issueOn s core 4 (wordVmov ctl d a b bseg) (fun _ => opBin .mov d.toNat a.toNat b.toNat bseg)

/-- The instruction word of VCVT (R178). -/
def wordVcvt (ctl : Ctl) (d : BitVec 11) (a : BitVec 11) (tf : BitVec 2) (sc : BitVec 9) (sen : Bool) (sb : BitVec 4) : Word :=
  insWord 4 0x19 ctl (fld d.toNat 34 + fld a.toNat 23 + fld tf.toNat 21 + fld sc.toNat 12 + fld (b2n sen) 11 + fld sb.toNat 7)

/-- VCVT (R178). -/
def execVcvt (core : Nat) (ctl : Ctl) (d : BitVec 11) (a : BitVec 11) (tf : BitVec 2) (sc : BitVec 9) (sen : Bool) (sb : BitVec 4) (s : State) : Result :=
  issueOn s core 4 (wordVcvt ctl d a tf sc sen sb) (fun _ => opVcvt d.toNat a.toNat tf.toNat sc.toNat sen sb.toNat)

/-- The instruction word of VRED (R179). -/
def wordVred (ctl : Ctl) (d : BitVec 11) (a : BitVec 11) (rop : BitVec 3) : Word :=
  insWord 4 0x1A ctl (fld d.toNat 34 + fld a.toNat 23 + fld rop.toNat 20)

/-- VRED (R179). -/
def execVred (core : Nat) (ctl : Ctl) (d : BitVec 11) (a : BitVec 11) (rop : BitVec 3) (s : State) : Result :=
  issueOn s core 4 (wordVred ctl d a rop) (fun _ => opVred d.toNat a.toNat rop.toNat)

/-- The instruction word of VTAB (R184). -/
def wordVtab (ctl : Ctl) (d : BitVec 11) (a : BitVec 11) (func : BitVec 5) (der : Bool) : Word :=
  insWord 4 0x1B ctl (fld d.toNat 34 + fld a.toNat 23 + fld func.toNat 18 + fld (b2n der) 17)

/-- VTAB (R184). -/
def execVtab (core : Nat) (ctl : Ctl) (d : BitVec 11) (a : BitVec 11) (func : BitVec 5) (der : Bool) (s : State) : Result :=
  issueOn s core 4 (wordVtab ctl d a func der) (fun _ => opVtab d.toNat a.toNat func.toNat der)

/-- The instruction word of VCMPR (R181). -/
def wordVcmpr (ctl : Ctl) (d : BitVec 11) (a : BitVec 11) (m : BitVec 11) : Word :=
  insWord 4 0x1C ctl (fld d.toNat 34 + fld a.toNat 23 + fld m.toNat 12)

/-- VCMPR (R181). -/
def execVcmpr (core : Nat) (ctl : Ctl) (d : BitVec 11) (a : BitVec 11) (m : BitVec 11) (s : State) : Result :=
  issueOn s core 4 (wordVcmpr ctl d a m) (fun _ => opMove .cmpr d.toNat a.toNat m.toNat)

/-- The instruction word of VEXPD (R182). -/
def wordVexpd (ctl : Ctl) (d : BitVec 11) (a : BitVec 11) (m : BitVec 11) (zf : Bool) : Word :=
  insWord 4 0x1D ctl (fld d.toNat 34 + fld a.toNat 23 + fld m.toNat 12 + fld (b2n zf) 11)

/-- VEXPD (R182). -/
def execVexpd (core : Nat) (ctl : Ctl) (d : BitVec 11) (a : BitVec 11) (m : BitVec 11) (zf : Bool) (s : State) : Result :=
  issueOn s core 4 (wordVexpd ctl d a m zf) (fun _ => opMove (.expd zf) d.toNat a.toNat m.toNat)

/-- The instruction word of VSTAT (R188). -/
def wordVstat (ctl : Ctl) (a : BitVec 11) (sb : BitVec 4) : Word :=
  insWord 4 0x1E ctl (fld a.toNat 23 + fld sb.toNat 19)

/-- VSTAT (R188). -/
def execVstat (core : Nat) (ctl : Ctl) (a : BitVec 11) (sb : BitVec 4) (s : State) : Result :=
  issueOn s core 4 (wordVstat ctl a sb) (fun _ => opVstat a.toNat sb.toNat)

/-- The instruction word of SCLR (R188). -/
def wordSclr (ctl : Ctl) (sb : BitVec 4) (base : BitVec 9) : Word :=
  insWord 4 0x1F ctl (fld sb.toNat 41 + fld base.toNat 32)

/-- SCLR (R188). -/
def execSclr (core : Nat) (ctl : Ctl) (sb : BitVec 4) (base : BitVec 9) (s : State) : Result :=
  issueOn s core 4 (wordSclr ctl sb base) (fun _ => opSclr sb.toNat base.toNat)

/-- The instruction word of SUPD (R180). -/
def wordSupd (ctl : Ctl) (d : BitVec 11) (a : BitVec 11) (b : BitVec 11) (e : BitVec 9) (neg : Bool) : Word :=
  insWord 4 0x20 ctl (fld d.toNat 34 + fld a.toNat 23 + fld b.toNat 12 + fld e.toNat 3 + fld (b2n neg) 2)

/-- SUPD (R180). -/
def execSupd (core : Nat) (ctl : Ctl) (d : BitVec 11) (a : BitVec 11) (b : BitVec 11) (e : BitVec 9) (neg : Bool) (s : State) : Result :=
  issueOn s core 4 (wordSupd ctl d a b e neg) (fun _ => opSupd d.toNat a.toNat b.toNat e.toNat neg)

/-- The instruction word of FSEL (R208). -/
def wordFsel (ctl : Ctl) (h : BitVec 6) (sb : BitVec 4) (nb : BitVec 4) : Word :=
  insWord 4 0x21 ctl (fld h.toNat 39 + fld sb.toNat 35 + fld nb.toNat 31)

/-- FSEL (R208). -/
def execFsel (core : Nat) (ctl : Ctl) (h : BitVec 6) (sb : BitVec 4) (nb : BitVec 4) (s : State) : Result :=
  issueOn s core 4 (wordFsel ctl h sb nb) (fun env => opFsel env h.toNat sb.toNat nb.toNat)

end Sys2Proof.Machine
end

