-- ==== Sys2Proof/Machine/Dispatch.lean ====
section
/-! DEFINITION. What each command does, one arm a command; the queue is the step's. -/

namespace Sys2Proof.Machine

/-- The effect of a command on everything but the queue. -/
def exec (i : Instr) (s : State) : Host.Outcome State Fault Refusal :=
  match i with
  | .nop core eng ctl => Sys2Proof.Machine.execNop core eng ctl s
  | .halt core eng ctl => Sys2Proof.Machine.execHalt core eng ctl s
  | .loop core eng ctl lc body => Sys2Proof.Machine.execLoop core eng ctl lc body s
  | .instructionAtHead core eng => Sys2Proof.Machine.execInstructionAtHead core eng s
  | .completionCycle core => Sys2Proof.Machine.execCompletionCycle core s
  | .flagTimeout core eng => Sys2Proof.Machine.execFlagTimeout core eng s
  | .slipLimitExceeded core => Sys2Proof.Machine.execSlipLimitExceeded core s
  | .add core ctl d a b => Sys2Proof.Machine.execAdd core ctl d a b s
  | .sub core ctl d a b => Sys2Proof.Machine.execSub core ctl d a b s
  | .and core ctl d a b => Sys2Proof.Machine.execAnd core ctl d a b s
  | .or core ctl d a b => Sys2Proof.Machine.execOr core ctl d a b s
  | .xor core ctl d a b => Sys2Proof.Machine.execXor core ctl d a b s
  | .shl core ctl d a b => Sys2Proof.Machine.execShl core ctl d a b s
  | .shr core ctl d a b => Sys2Proof.Machine.execShr core ctl d a b s
  | .sra core ctl d a b => Sys2Proof.Machine.execSra core ctl d a b s
  | .cmplt core ctl d a b => Sys2Proof.Machine.execCmplt core ctl d a b s
  | .cmpltu core ctl d a b => Sys2Proof.Machine.execCmpltu core ctl d a b s
  | .cmpeq core ctl d a b => Sys2Proof.Machine.execCmpeq core ctl d a b s
  | .mul core ctl d a b => Sys2Proof.Machine.execMul core ctl d a b s
  | .addi core ctl d a imm => Sys2Proof.Machine.execAddi core ctl d a imm s
  | .andi core ctl d a imm => Sys2Proof.Machine.execAndi core ctl d a imm s
  | .shli core ctl d a imm => Sys2Proof.Machine.execShli core ctl d a imm s
  | .shri core ctl d a imm => Sys2Proof.Machine.execShri core ctl d a imm s
  | .movi core ctl d imm => Sys2Proof.Machine.execMovi core ctl d imm s
  | .movh core ctl d imm => Sys2Proof.Machine.execMovh core ctl d imm s
  | .ld core ctl d a imm => Sys2Proof.Machine.execLd core ctl d a imm s
  | .st core ctl d a imm => Sys2Proof.Machine.execSt core ctl d a imm s
  | .cwr core ctl d a imm => Sys2Proof.Machine.execCwr core ctl d a imm s
  | .cww core ctl d a imm => Sys2Proof.Machine.execCww core ctl d a imm s
  | .step core ctl => Sys2Proof.Machine.execStep core ctl s
  | .copy core ctl dst src dring incd incs size => Sys2Proof.Machine.execCopy core ctl dst src dring incd incs size s
  | .loadq core ctl src queue incs size => Sys2Proof.Machine.execLoadq core ctl src queue incs size s
  | .store core ctl dst src incd incs size => Sys2Proof.Machine.execStore core ctl dst src incd incs size s
  | .mcast core ctl dst src mset size => Sys2Proof.Machine.execMcast core ctl dst src mset size s
  | .light core ctl src dcore size => Sys2Proof.Machine.execLight core ctl src dcore size s
  | .qland core ctl dst queue dring incd => Sys2Proof.Machine.execQland core ctl dst queue dring incd s
  | .sendStart core => Sys2Proof.Machine.execSendStart core s
  | .outboundStall core => Sys2Proof.Machine.execOutboundStall core s
  | .outboundRoom core nt => Sys2Proof.Machine.execOutboundRoom core nt s
  | .regulatorRelease core cls => Sys2Proof.Machine.execRegulatorRelease core cls s
  | .queueDataLand core queue req fault ext => Sys2Proof.Machine.execQueueDataLand core queue req fault ext s
  | .storeLanded core tid fault refused => Sys2Proof.Machine.execStoreLanded core tid fault refused s
  | .mcastCopyLand core tid dest => Sys2Proof.Machine.execMcastCopyLand core tid dest s
  | .lightSlotSend core => Sys2Proof.Machine.execLightSlotSend core s
  | .lightLanding core src => Sys2Proof.Machine.execLightLanding core src s
  | .backgroundAccess core write off len data => Sys2Proof.Machine.execBackgroundAccess core write off len data s
  | .creditGrant core idx word => Sys2Proof.Machine.execCreditGrant core idx word s
  | .oset core ctl s' h orient turn half start => Sys2Proof.Machine.execOset core ctl s' h orient turn half start s
  | .omask core ctl h off => Sys2Proof.Machine.execOmask core ctl h off s
  | .mma core ctl sa sb m n k rnd msk swd => Sys2Proof.Machine.execMma core ctl sa sb m n k rnd msk swd s
  | .mmaq core ctl qmask m n k rnd msk swd => Sys2Proof.Machine.execMmaq core ctl qmask m n k rnd msk swd s
  | .swap core ctl drn clr last => Sys2Proof.Machine.execSwap core ctl drn clr last s
  | .oclr core ctl => Sys2Proof.Machine.execOclr core ctl s
  | .preload core ctl h start m => Sys2Proof.Machine.execPreload core ctl h start m s
  | .drainRow core => Sys2Proof.Machine.execDrainRow core s
  | .mcfg core ctl fmt scale lanes estart => Sys2Proof.Machine.execMcfg core ctl fmt scale lanes estart s
  | .hload core ctl v h eoff n soff => Sys2Proof.Machine.execHload core ctl v h eoff n soff s
  | .mstream core ctl areg inc vsel solo k rnd emit => Sys2Proof.Machine.execMstream core ctl areg inc vsel solo k rnd emit s
  | .mstreamGroupAdd core => Sys2Proof.Machine.execMstreamGroupAdd core s
  | .emission core => Sys2Proof.Machine.execEmission core s
  | .mpop core ctl h off n rnd => Sys2Proof.Machine.execMpop core ctl h off n rnd s
  | .vcfg core ctl fmt rnd msk mslot len lcnt seg => Sys2Proof.Machine.execVcfg core ctl fmt rnd msk mslot len lcnt seg s
  | .vptr core ctl p h orient off => Sys2Proof.Machine.execVptr core ctl p h orient off s
  | .vld core ctl slot ptr inc => Sys2Proof.Machine.execVld core ctl slot ptr inc s
  | .vst core ctl slot ptr inc sen sb => Sys2Proof.Machine.execVst core ctl slot ptr inc sen sb s
  | .tqrd core ctl slot row nrows ent rel => Sys2Proof.Machine.execTqrd core ctl slot row nrows ent rel s
  | .rqrd core ctl slot ent rel => Sys2Proof.Machine.execRqrd core ctl slot ent rel s
  | .tbw core ctl slot half row nrows tf sc tag sen sb => Sys2Proof.Machine.execTbw core ctl slot half row nrows tf sc tag sen sb s
  | .vadd core ctl d a b bseg => Sys2Proof.Machine.execVadd core ctl d a b bseg s
  | .vsub core ctl d a b bseg => Sys2Proof.Machine.execVsub core ctl d a b bseg s
  | .vmul core ctl d a b bseg => Sys2Proof.Machine.execVmul core ctl d a b bseg s
  | .vmax core ctl d a b bseg => Sys2Proof.Machine.execVmax core ctl d a b bseg s
  | .vmin core ctl d a b bseg => Sys2Proof.Machine.execVmin core ctl d a b bseg s
  | .vfma core ctl d a b c bseg => Sys2Proof.Machine.execVfma core ctl d a b c bseg s
  | .vcmp core ctl d a b cond bseg => Sys2Proof.Machine.execVcmp core ctl d a b cond bseg s
  | .vsel core ctl d a b c bseg => Sys2Proof.Machine.execVsel core ctl d a b c bseg s
  | .vmov core ctl d a b bseg => Sys2Proof.Machine.execVmov core ctl d a b bseg s
  | .vcvt core ctl d a tf sc sen sb => Sys2Proof.Machine.execVcvt core ctl d a tf sc sen sb s
  | .vred core ctl d a rop => Sys2Proof.Machine.execVred core ctl d a rop s
  | .vtab core ctl d a func der => Sys2Proof.Machine.execVtab core ctl d a func der s
  | .vcmpr core ctl d a m => Sys2Proof.Machine.execVcmpr core ctl d a m s
  | .vexpd core ctl d a m zf => Sys2Proof.Machine.execVexpd core ctl d a m zf s
  | .vstat core ctl a sb => Sys2Proof.Machine.execVstat core ctl a sb s
  | .sclr core ctl sb base => Sys2Proof.Machine.execSclr core ctl sb base s
  | .supd core ctl d a b e neg => Sys2Proof.Machine.execSupd core ctl d a b e neg s
  | .fsel core ctl h sb nb => Sys2Proof.Machine.execFsel core ctl h sb nb s
  | .msend core ctl endn areg inc len tag => Sys2Proof.Machine.execMsend core ctl endn areg inc len tag s
  | .mrecv core ctl mask rot poll => Sys2Proof.Machine.execMrecv core ctl mask rot poll s
  | .mrel core ctl endn => Sys2Proof.Machine.execMrel core ctl endn s
  | .mcomb core ctl endn areg inc len => Sys2Proof.Machine.execMcomb core ctl endn areg inc len s
  | .mctake core ctl q areg inc => Sys2Proof.Machine.execMctake core ctl q areg inc s
  | .messageLand core endn ext => Sys2Proof.Machine.execMessageLand core endn ext s
  | .padConsumed core endn => Sys2Proof.Machine.execPadConsumed core endn s
  | .creditReturn core endn ext => Sys2Proof.Machine.execCreditReturn core endn ext s
  | .contributionArrival core queue src ext => Sys2Proof.Machine.execContributionArrival core queue src ext s
  | .combine core => Sys2Proof.Machine.execCombine core s
  | .beacon core => Sys2Proof.Machine.execBeacon core s
  | .channelDeadlock core => Sys2Proof.Machine.execChannelDeadlock core s
  | .contextSwitch core eng => Sys2Proof.Machine.execContextSwitch core eng s
  | .feederRead core eng fault => Sys2Proof.Machine.execFeederRead core eng fault s
  | .feedStall core eng => Sys2Proof.Machine.execFeedStall core eng s
  | .programStart prog => Sys2Proof.Machine.execProgramStart prog s
  | .barrierReady prog chip => Sys2Proof.Machine.execBarrierReady prog chip s
  | .barrierRelease prog t => Sys2Proof.Machine.execBarrierRelease prog t s
  | .stepCommit prog => Sys2Proof.Machine.execStepCommit prog s
  | .emptyHoldRelease prog => Sys2Proof.Machine.execEmptyHoldRelease prog s
  | .remount prog => Sys2Proof.Machine.execRemount prog s
  | .hang prog => Sys2Proof.Machine.execHang prog s
  | .escalation cause detail => Sys2Proof.Machine.execEscalation cause detail s
  | .coreFault core => Sys2Proof.Machine.execCoreFault core s
  | .chipLevelError cause => Sys2Proof.Machine.execChipLevelError cause s
  | .stepDone prog chip news => Sys2Proof.Machine.execStepDone prog chip news s
  | .commitFlit prog news => Sys2Proof.Machine.execCommitFlit prog news s
  | .remountFlit prog chip t => Sys2Proof.Machine.execRemountFlit prog chip t s
  | .escalate prog => Sys2Proof.Machine.execEscalate prog s
  | .engineDrainTimeout core eng => Sys2Proof.Machine.execEngineDrainTimeout core eng s
  | .restWindow stack => Sys2Proof.Machine.execRestWindow stack s
  | .nearReread addr ok stall => Sys2Proof.Machine.execNearReread addr ok stall s
  | .mirrorRead addr ok stall => Sys2Proof.Machine.execMirrorRead addr ok stall s
  | .scrubRead addr fault => Sys2Proof.Machine.execScrubRead addr fault s
  | .mirrorSyncDone region => Sys2Proof.Machine.execMirrorSyncDone region s
  | .bankWake core bank => Sys2Proof.Machine.execBankWake core bank s
  | .bankDrainTimeout core bank => Sys2Proof.Machine.execBankDrainTimeout core bank s
  | .flitReceive port flit => Sys2Proof.Machine.execFlitReceive port flit s
  | .nak port seq => Sys2Proof.Machine.execNak port seq s
  | .ackTimeout port => Sys2Proof.Machine.execAckTimeout port s
  | .laneLockLoss port lane => Sys2Proof.Machine.execLaneLockLoss port lane s
  | .retrainComplete port news => Sys2Proof.Machine.execRetrainComplete port news s
  | .portDownTimeout port => Sys2Proof.Machine.execPortDownTimeout port s
  | .linkTrained port => Sys2Proof.Machine.execLinkTrained port s
  | .init port peerChip peerPort versions => Sys2Proof.Machine.execInit port peerChip peerPort versions s
  | .cal port picos => Sys2Proof.Machine.execCal port picos s
  | .time port ahead aligned => Sys2Proof.Machine.execTime port ahead aligned s
  | .beaconFlit chip core waits => Sys2Proof.Machine.execBeaconFlit chip core waits s
  | .flitDue prog station flow word => Sys2Proof.Machine.execFlitDue prog station flow word s
  | .jiziaPortDrainTimeout port => Sys2Proof.Machine.execJiziaPortDrainTimeout port s
  | .submissionTail queue octets => Sys2Proof.Machine.execSubmissionTail queue octets s
  | .completionHead queue octets => Sys2Proof.Machine.execCompletionHead queue octets s
  | .rdmaWrite queue va rkey octets => Sys2Proof.Machine.execRdmaWrite queue va rkey octets s
  | .rdmaRead queue va rkey len => Sys2Proof.Machine.execRdmaRead queue va rkey len s
  | .atomicRequest queue => Sys2Proof.Machine.execAtomicRequest queue s
  | .cnp queue => Sys2Proof.Machine.execCnp queue s
  | .pfcFrame port prio => Sys2Proof.Machine.execPfcFrame port prio s
  | .hostLinkLoss port => Sys2Proof.Machine.execHostLinkLoss port s
  | .nopEntry queue => Sys2Proof.Machine.execNopEntry queue s
  | .load queue => Sys2Proof.Machine.execLoad queue s
  | .start queue => Sys2Proof.Machine.execStart queue s
  | .stop queue => Sys2Proof.Machine.execStop queue s
  | .stream queue => Sys2Proof.Machine.execStream queue s
  | .signal queue => Sys2Proof.Machine.execSignal queue s
  | .window queue => Sys2Proof.Machine.execWindow queue s
  | .destroy queue => Sys2Proof.Machine.execDestroy queue s
  | .windowDrainTimeout window => Sys2Proof.Machine.execWindowDrainTimeout window s
  | .create queue => Sys2Proof.Machine.execCreate queue s
  | .set queue => Sys2Proof.Machine.execSet queue s
  | .restore queue => Sys2Proof.Machine.execRestore queue s
  | .restoreLanded session ok data => Sys2Proof.Machine.execRestoreLanded session ok data s
  | .evict queue => Sys2Proof.Machine.execEvict queue s
  | .evictWritten session ok => Sys2Proof.Machine.execEvictWritten session ok s
  | .delete queue => Sys2Proof.Machine.execDelete queue s
  | .sessionDrainTimeout session => Sys2Proof.Machine.execSessionDrainTimeout session s
  | .aload queue => Sys2Proof.Machine.execAload queue s
  | .adfree queue => Sys2Proof.Machine.execAdfree queue s
  | .completionBacklog queue => Sys2Proof.Machine.execCompletionBacklog queue s
  | .hostPortDrainTimeout port => Sys2Proof.Machine.execHostPortDrainTimeout port s
  | .queueDrainTimeout queue => Sys2Proof.Machine.execQueueDrainTimeout queue s
  | .read frame => Sys2Proof.Machine.execRead frame s
  | .write frame => Sys2Proof.Machine.execWrite frame s
  | .describe frame => Sys2Proof.Machine.execDescribe frame s
  | .next frame => Sys2Proof.Machine.execNext frame s
  | .hello frame => Sys2Proof.Machine.execHello frame s
  | .auth frame => Sys2Proof.Machine.execAuth frame s
  | .close frame => Sys2Proof.Machine.execClose frame s
  | .begin frame => Sys2Proof.Machine.execBegin frame s
  | .commit frame => Sys2Proof.Machine.execCommit frame s
  | .rollback frame => Sys2Proof.Machine.execRollback frame s
  | .authFragmentTimeout session => Sys2Proof.Machine.execAuthFragmentTimeout session s
  | .pendingSessionExpiry session => Sys2Proof.Machine.execPendingSessionExpiry session s
  | .sessionIdleTimeout session => Sys2Proof.Machine.execSessionIdleTimeout session s
  | .transactionTimeout => Sys2Proof.Machine.execTransactionTimeout s
  | .registerWrite target value => Sys2Proof.Machine.execRegisterWrite target value s
  | .banksCore core mask => Sys2Proof.Machine.execBanksCore core mask s
  | .mirrorState region state => Sys2Proof.Machine.execMirrorState region state s
  | .scrubberEnable on => Sys2Proof.Machine.execScrubberEnable on s
  | .coreEnable part mask => Sys2Proof.Machine.execCoreEnable part mask s
  | .jiziaPortEnable port on => Sys2Proof.Machine.execJiziaPortEnable port on s
  | .hostPortEnable port on => Sys2Proof.Machine.execHostPortEnable port on s
  | .queueEnable queue on => Sys2Proof.Machine.execQueueEnable queue on s
  | .chipId chip dims sizes root => Sys2Proof.Machine.execChipId chip dims sizes root s
  | .nodeId session node => Sys2Proof.Machine.execNodeId session node s
  | .mode mode => Sys2Proof.Machine.execMode mode s
  | .requestActive overSegment => Sys2Proof.Machine.execRequestActive overSegment s
  | .requestIdle => Sys2Proof.Machine.execRequestIdle s
  | .requestParked => Sys2Proof.Machine.execRequestParked s
  | .requestStandby => Sys2Proof.Machine.execRequestStandby s
  | .coreReset => Sys2Proof.Machine.execCoreReset s
  | .warmReset => Sys2Proof.Machine.execWarmReset s
  | .coldReset byPin => Sys2Proof.Machine.execColdReset byPin s
  | .powerOnReset => Sys2Proof.Machine.execPowerOnReset s
  | .resetRelease => Sys2Proof.Machine.execResetRelease s
  | .zeroingComplete => Sys2Proof.Machine.execZeroingComplete s
  | .patterns cores prog => Sys2Proof.Machine.execPatterns cores prog s
  | .record prog step addr => Sys2Proof.Machine.execRecord prog step addr s
  | .replay prog => Sys2Proof.Machine.execReplay prog s
  | .vettingRunEnd failing => Sys2Proof.Machine.execVettingRunEnd failing s
  | .alertAck seq => Sys2Proof.Machine.execAlertAck seq s
  | .updateData session octets => Sys2Proof.Machine.execUpdateData session octets s
  | .updateCheck session => Sys2Proof.Machine.execUpdateCheck session s
  | .restartStandby session => Sys2Proof.Machine.execRestartStandby session s
  | .handover session => Sys2Proof.Machine.execHandover session s
  | .commitSvn session => Sys2Proof.Machine.execCommitSvn session s
  | .revokeSlot session slot => Sys2Proof.Machine.execRevokeSlot session slot s
  | .nonce session octets => Sys2Proof.Machine.execNonce session octets s
  | .freezeNow => Sys2Proof.Machine.execFreezeNow s
  | .armTimeTrigger at_ => Sys2Proof.Machine.execArmTimeTrigger at_ s
  | .armCycleTrigger prog at_ => Sys2Proof.Machine.execArmCycleTrigger prog at_ s
  | .timeTrigger => Sys2Proof.Machine.execTimeTrigger s
  | .cycleTrigger => Sys2Proof.Machine.execCycleTrigger s
  | .readoutStart => Sys2Proof.Machine.execReadoutStart s
  | .readoutComplete ok octets => Sys2Proof.Machine.execReadoutComplete ok octets s
  | .endTest => Sys2Proof.Machine.execEndTest s
  | .endService => Sys2Proof.Machine.execEndService s
  | .freezeN lowNs => Sys2Proof.Machine.execFreezeN lowNs s
  | .resetN lowNs => Sys2Proof.Machine.execResetN lowNs s
  | .timePps offsetNs => Sys2Proof.Machine.execTimePps offsetNs s
  | .chainIn high => Sys2Proof.Machine.execChainIn high s
  | .stretch domain => Sys2Proof.Machine.execStretch domain s
  | .forcedRestWindow => Sys2Proof.Machine.execForcedRestWindow s
  | .limiterMeasurement microjoules over1600 => Sys2Proof.Machine.execLimiterMeasurement microjoules over1600 s
  | .crossingCalibrationLoss src dst => Sys2Proof.Machine.execCrossingCalibrationLoss src dst s
  | .pllUnlock => Sys2Proof.Machine.execPllUnlock s
  | .input48vLow => Sys2Proof.Machine.execInput48vLow s
  | .input48vHigh => Sys2Proof.Machine.execInput48vHigh s
  | .input48vRecovery => Sys2Proof.Machine.execInput48vRecovery s
  | .input3v3Low => Sys2Proof.Machine.execInput3v3Low s
  | .overTemperature => Sys2Proof.Machine.execOverTemperature s
  | .thermalRecovery => Sys2Proof.Machine.execThermalRecovery s
  | .yarrowBoot off => Sys2Proof.Machine.execYarrowBoot off s
  | .noPrimary => Sys2Proof.Machine.execNoPrimary s
  | .heartbeat nearAlive offAlive => Sys2Proof.Machine.execHeartbeat nearAlive offAlive s
  | .takeover => Sys2Proof.Machine.execTakeover s
  | .standbyRestart => Sys2Proof.Machine.execStandbyRestart s
  | .tokenConflict both => Sys2Proof.Machine.execTokenConflict both s
  | .hostPortTrained port => Sys2Proof.Machine.execHostPortTrained port s
  | .localAckTimeout queue => Sys2Proof.Machine.execLocalAckTimeout queue s
  | .hostAckOrNak queue nak => Sys2Proof.Machine.execHostAckOrNak queue nak s
  | .primacyClaim off => Sys2Proof.Machine.execPrimacyClaim off s
  | .exitToActive => Sys2Proof.Machine.execExitToActive s
  | .tapOperation instr tdi => Sys2Proof.Machine.execTapOperation instr tdi s

end Sys2Proof.Machine
end

