-- ==== Sys2Proof/WellFormed.lean ====
section
/-! DEFINITION. Well-formed commands: every core, engine, port, queue, window, session and other unit that a command names is one the
part has. -/

namespace Sys2Proof

/-- A core number (R10). -/
def coreOk (c : Nat) : Bool := decide (c < 144)

/-- A register that REGISTER_WRITE names lies in a core's control block, or in the dictionary. -/
def targetOk (t : RegTarget) : Bool :=
  match t with
  | .entry _ _ _ => true
  | .control c _ => coreOk c

/-- The command names no unit that the part does not have (R10, R41, R322, R353, R380, R383, R395). -/
def wellFormed (i : Instr) : Bool :=
  match i with
  | .nop core eng _ => coreOk core && decide (eng < 6)
  | .halt core eng _ => coreOk core && decide (eng < 6)
  | .loop core eng _ _ _ => coreOk core && decide (eng < 6)
  | .instructionAtHead core eng => coreOk core && decide (eng < 6)
  | .completionCycle core => coreOk core
  | .flagTimeout core eng => coreOk core && decide (eng < 6)
  | .slipLimitExceeded core => coreOk core
  | .add core _ _ _ _ => coreOk core
  | .sub core _ _ _ _ => coreOk core
  | .and core _ _ _ _ => coreOk core
  | .or core _ _ _ _ => coreOk core
  | .xor core _ _ _ _ => coreOk core
  | .shl core _ _ _ _ => coreOk core
  | .shr core _ _ _ _ => coreOk core
  | .sra core _ _ _ _ => coreOk core
  | .cmplt core _ _ _ _ => coreOk core
  | .cmpltu core _ _ _ _ => coreOk core
  | .cmpeq core _ _ _ _ => coreOk core
  | .mul core _ _ _ _ => coreOk core
  | .addi core _ _ _ _ => coreOk core
  | .andi core _ _ _ _ => coreOk core
  | .shli core _ _ _ _ => coreOk core
  | .shri core _ _ _ _ => coreOk core
  | .movi core _ _ _ => coreOk core
  | .movh core _ _ _ => coreOk core
  | .ld core _ _ _ _ => coreOk core
  | .st core _ _ _ _ => coreOk core
  | .cwr core _ _ _ _ => coreOk core
  | .cww core _ _ _ _ => coreOk core
  | .step core _ => coreOk core
  | .copy core _ _ _ _ _ _ _ => coreOk core
  | .loadq core _ _ _ _ _ => coreOk core
  | .store core _ _ _ _ _ _ => coreOk core
  | .mcast core _ _ _ _ _ => coreOk core
  | .light core _ _ _ _ => coreOk core
  | .qland core _ _ _ _ _ => coreOk core
  | .sendStart core => coreOk core
  | .outboundStall core => coreOk core
  | .outboundRoom core _ => coreOk core
  | .regulatorRelease core cls => coreOk core && decide (cls < 4)
  | .queueDataLand core queue _ _ _ => coreOk core && decide (queue < 16)
  | .storeLanded core _ _ _ => coreOk core
  | .mcastCopyLand core _ dest => coreOk core && coreOk dest
  | .lightSlotSend core => coreOk core
  | .lightLanding core src => coreOk core && coreOk src
  | .backgroundAccess core _ _ _ _ => coreOk core
  | .creditGrant core idx _ => coreOk core && decide (idx < 16)
  | .oset core _ _ _ _ _ _ _ => coreOk core
  | .omask core _ _ _ => coreOk core
  | .mma core _ _ _ _ _ _ _ _ _ => coreOk core
  | .mmaq core _ _ _ _ _ _ _ _ => coreOk core
  | .swap core _ _ _ _ => coreOk core
  | .oclr core _ => coreOk core
  | .preload core _ _ _ _ => coreOk core
  | .drainRow core => coreOk core
  | .mcfg core _ _ _ _ _ => coreOk core
  | .hload core _ _ _ _ _ _ => coreOk core
  | .mstream core _ _ _ _ _ _ _ _ => coreOk core
  | .mstreamGroupAdd core => coreOk core
  | .emission core => coreOk core
  | .mpop core _ _ _ _ _ => coreOk core
  | .vcfg core _ _ _ _ _ _ _ _ => coreOk core
  | .vptr core _ _ _ _ _ => coreOk core
  | .vld core _ _ _ _ => coreOk core
  | .vst core _ _ _ _ _ _ => coreOk core
  | .tqrd core _ _ _ _ _ _ => coreOk core
  | .rqrd core _ _ _ _ => coreOk core
  | .tbw core _ _ _ _ _ _ _ _ _ _ => coreOk core
  | .vadd core _ _ _ _ _ => coreOk core
  | .vsub core _ _ _ _ _ => coreOk core
  | .vmul core _ _ _ _ _ => coreOk core
  | .vmax core _ _ _ _ _ => coreOk core
  | .vmin core _ _ _ _ _ => coreOk core
  | .vfma core _ _ _ _ _ _ => coreOk core
  | .vcmp core _ _ _ _ _ _ => coreOk core
  | .vsel core _ _ _ _ _ _ => coreOk core
  | .vmov core _ _ _ _ _ => coreOk core
  | .vcvt core _ _ _ _ _ _ _ => coreOk core
  | .vred core _ _ _ _ => coreOk core
  | .vtab core _ _ _ _ _ => coreOk core
  | .vcmpr core _ _ _ _ => coreOk core
  | .vexpd core _ _ _ _ _ => coreOk core
  | .vstat core _ _ _ => coreOk core
  | .sclr core _ _ _ => coreOk core
  | .supd core _ _ _ _ _ _ => coreOk core
  | .fsel core _ _ _ _ => coreOk core
  | .msend core _ _ _ _ _ _ => coreOk core
  | .mrecv core _ _ _ _ => coreOk core
  | .mrel core _ _ => coreOk core
  | .mcomb core _ _ _ _ _ => coreOk core
  | .mctake core _ _ _ _ => coreOk core
  | .messageLand core endn _ => coreOk core && decide (endn < 32)
  | .padConsumed core endn => coreOk core && decide (endn < 32)
  | .creditReturn core endn _ => coreOk core && decide (endn < 32)
  | .contributionArrival core queue src _ => coreOk core && decide (queue < 8) && decide (src < 64)
  | .combine core => coreOk core
  | .beacon core => coreOk core
  | .channelDeadlock core => coreOk core
  | .contextSwitch core eng => coreOk core && decide (eng < 6)
  | .feederRead core eng _ => coreOk core && decide (eng < 6)
  | .feedStall core eng => coreOk core && decide (eng < 6)
  | .programStart _ => true
  | .barrierReady _ _ => true
  | .barrierRelease _ _ => true
  | .stepCommit _ => true
  | .emptyHoldRelease _ => true
  | .remount _ => true
  | .hang _ => true
  | .escalation _ _ => true
  | .coreFault core => coreOk core
  | .chipLevelError _ => true
  | .stepDone _ _ _ => true
  | .commitFlit _ _ => true
  | .remountFlit _ _ t => t.groups.all fun g => decide (g < 64)
  | .escalate _ => true
  | .engineDrainTimeout core eng => coreOk core && decide (eng < 6)
  | .restWindow stack => decide (stack < 6)
  | .nearReread _ _ _ => true
  | .mirrorRead _ _ _ => true
  | .scrubRead _ _ => true
  | .mirrorSyncDone region => decide (region < 32)
  | .bankWake core bank => coreOk core && decide (bank < 16)
  | .bankDrainTimeout core bank => coreOk core && decide (bank < 16)
  | .flitReceive port _ => decide (port < 12)
  | .nak port _ => decide (port < 12)
  | .ackTimeout port => decide (port < 12)
  | .laneLockLoss port lane => decide (port < 12) && decide (lane < 4)
  | .retrainComplete port _ => decide (port < 12)
  | .portDownTimeout port => decide (port < 12)
  | .linkTrained port => decide (port < 12)
  | .init port _ _ _ => decide (port < 12)
  | .cal port _ => decide (port < 12)
  | .time port _ _ => decide (port < 12)
  | .beaconFlit _ core _ => coreOk core
  | .flitDue _ station _ _ => decide (station < 12)
  | .jiziaPortDrainTimeout port => decide (port < 12)
  | .submissionTail queue _ => decide (queue < 4096)
  | .completionHead queue _ => decide (queue < 4096)
  | .rdmaWrite queue _ _ _ => decide (queue < 4096)
  | .rdmaRead queue _ _ _ => decide (queue < 4096)
  | .atomicRequest queue => decide (queue < 4096)
  | .cnp queue => decide (queue < 4096)
  | .pfcFrame port _ => decide (port < 4)
  | .hostLinkLoss port => decide (port < 4)
  | .nopEntry queue => decide (queue < 4096)
  | .load queue => decide (queue < 4096)
  | .start queue => decide (queue < 4096)
  | .stop queue => decide (queue < 4096)
  | .stream queue => decide (queue < 4096)
  | .signal queue => decide (queue < 4096)
  | .window queue => decide (queue < 4096)
  | .destroy queue => decide (queue < 4096)
  | .windowDrainTimeout window => decide (window < 1024)
  | .create queue => decide (queue < 4096)
  | .set queue => decide (queue < 4096)
  | .restore queue => decide (queue < 4096)
  | .restoreLanded session _ _ => decide (session < 1048576)
  | .evict queue => decide (queue < 4096)
  | .evictWritten session _ => decide (session < 1048576)
  | .delete queue => decide (queue < 4096)
  | .sessionDrainTimeout session => decide (session < 1048576)
  | .aload queue => decide (queue < 4096)
  | .adfree queue => decide (queue < 4096)
  | .completionBacklog queue => decide (queue < 4096)
  | .hostPortDrainTimeout port => decide (port < 4)
  | .queueDrainTimeout queue => decide (queue < 4096)
  | .read _ => true
  | .write _ => true
  | .describe _ => true
  | .next _ => true
  | .hello _ => true
  | .auth _ => true
  | .close _ => true
  | .begin _ => true
  | .commit _ => true
  | .rollback _ => true
  | .authFragmentTimeout _ => true
  | .pendingSessionExpiry _ => true
  | .sessionIdleTimeout _ => true
  | .transactionTimeout => true
  | .registerWrite target _ => targetOk target
  | .banksCore core _ => coreOk core
  | .mirrorState region _ => decide (region < 32)
  | .scrubberEnable _ => true
  | .coreEnable part _ => decide (part < 3)
  | .jiziaPortEnable port _ => decide (port < 12)
  | .hostPortEnable port _ => decide (port < 4)
  | .queueEnable queue _ => decide (queue < 4096)
  | .chipId _ _ _ _ => true
  | .nodeId _ _ => true
  | .mode _ => true
  | .requestActive _ => true
  | .requestIdle => true
  | .requestParked => true
  | .requestStandby => true
  | .coreReset => true
  | .warmReset => true
  | .coldReset _ => true
  | .powerOnReset => true
  | .resetRelease => true
  | .zeroingComplete => true
  | .patterns _ _ => true
  | .record _ _ _ => true
  | .replay _ => true
  | .vettingRunEnd _ => true
  | .alertAck _ => true
  | .updateData _ _ => true
  | .updateCheck _ => true
  | .restartStandby _ => true
  | .handover _ => true
  | .commitSvn _ => true
  | .revokeSlot _ _ => true
  | .nonce _ _ => true
  | .freezeNow => true
  | .armTimeTrigger _ => true
  | .armCycleTrigger _ _ => true
  | .timeTrigger => true
  | .cycleTrigger => true
  | .readoutStart => true
  | .readoutComplete _ _ => true
  | .endTest => true
  | .endService => true
  | .freezeN _ => true
  | .resetN _ => true
  | .timePps _ => true
  | .chainIn _ => true
  | .stretch domain => decide (domain < 39)
  | .forcedRestWindow => true
  | .limiterMeasurement _ _ => true
  | .crossingCalibrationLoss _ _ => true
  | .pllUnlock => true
  | .input48vLow => true
  | .input48vHigh => true
  | .input48vRecovery => true
  | .input3v3Low => true
  | .overTemperature => true
  | .thermalRecovery => true
  | .yarrowBoot _ => true
  | .noPrimary => true
  | .heartbeat _ _ => true
  | .takeover => true
  | .standbyRestart => true
  | .tokenConflict _ => true
  | .hostPortTrained port => decide (port < 4)
  | .localAckTimeout queue => decide (queue < 4096)
  | .hostAckOrNak queue _ => decide (queue < 4096)
  | .primacyClaim _ => true
  | .exitToActive => true
  | .tapOperation _ _ => true

end Sys2Proof
end

