-- ==== Sys2Proof/Safety.lean ====
section
/-! DEFINITION. What counts as a safe run, in the terms that claims use: a step that does not stop, the primacy token, fuses that only
advance, and memory in its canonical form. -/

namespace Sys2Proof.Machine

/-- The step ends in a next state. -/
def continues (r : Result) : Bool :=
  match r with
  | .next _ => true
  | .fault _ => false
  | .refused _ => false

/-- At most one bit of the primacy token is set (R535, R538). -/
def State.tokenOk (s : State) : Bool := !(s.near.bit && s.off.bit)

/-- What the fuses may do: nothing blown becomes whole again (R543). -/
def Fuse.advances (f g : Fuse) : Prop :=
  f.svn ≤ g.svn ∧ (∀ k, nbit f.revoked k = true → nbit g.revoked k = true) ∧
    { g with svn := f.svn, revoked := f.revoked } = f

/-- Near and far memory are in their canonical form. -/
def State.memOk (s : State) : Bool := s.mem.wf

/-- An Irair session of the Owner role is open. -/
def State.ownerOpen (s : State) (id : Nat) : Prop := ∃ i, s.irSess id = some i ∧ i.role = 2

/-! ### An instruction at the head of its engine -/

/-- The first cycle in which the instruction at the head of an engine can issue (R42). -/
def Core.headCycle (c : Core) (eng : Nat) : Nat := max c.now (c.eng eng).headFree

/-- The core stands in cycle `t`, or nothing on its way takes effect, comes into turn or is in turn before it, and no other core has to come on
first. -/
def Core.quietTo (c : Core) (env : Env) (t : Nat) : Bool :=
  decide (t ≤ c.now) ||
    (!(c.stands env) && (match c.nextDue env with | some d => decide (t ≤ d) | none => true) && (c.points env).all fun d => decide (t ≤ d))

/-- The cycle in which the head of engine `eng` of core `c` can issue. -/
def State.issueCycle (s : State) (c eng : Nat) : Nat := (s.core c).headCycle eng

/-- The core as an instruction finds it in its issue cycle: its wait consumed, its number taken (R52, R57). -/
def State.issueCore (s : State) (c eng : Nat) (w : Word) : Core :=
  { ((s.core c).advance (s.issueCycle c eng)).consumeWait eng (s.issueCycle c eng) w with nextTid := (s.core c).nextTid + 1 }

/-- The place of the issue. -/
def State.issueAs (s : State) (c eng : Nat) : Iss :=
  ⟨s.issueCycle c eng, (s.core c).nextTid, eng, ((s.core c).eng eng).cur, ((s.core c).eng eng).here.pc⟩

/-- The instruction `w` stands at the head of engine `eng` of core `c`, whose program issues and is not being stopped; it passes the
checks of the head, its wait is satisfied in the first cycle it can issue in, and its signal is legal (R42, R52 to R54, R578). No engine of a
lower number is in turn (R53); nothing on its way in the core takes effect before that cycle, and no message of the core is about to leave the
chip. -/
structure State.Head (s : State) (c eng : Nat) (w : Word) : Prop where
  core : c < 144
  runs : s.coreRuns c = true
  kept : ∀ n p, (s.core c).prog = some n → s.prog n = some p → p.stopping = false
  calm : ((s.core c).te.net.filter (s.goesOff (s.core c))) = []
  active : ((s.core c).eng eng).active = true
  head : ((s.core c).eng eng).here.head = some w
  quiet : (s.core c).quietTo (s.env c) (s.issueCycle c eng) = true
  check : ((s.core c).eng eng).here.held = none → ((s.core c).eng eng).here.waited = false → headCheck (s.core c).coup eng w = none
  boundary : ((s.core c).eng eng).boundaryHeld (s.env c) eng = false
  wait : (((s.core c).eng eng).here.waited || (s.core c).coup.waitOk eng (waitOf w).1 (waitOf w).2) = true
  first : ((s.core c).advance (s.issueCycle c eng)).lowerFirst (s.env c) eng = false
  signal : (s.issueCore c eng w).coup.sigLegal eng (bits w 52 51) (bits w 50 45) = true

/-- What an operation comes to at the head of engine `eng` of core `c`. -/
def State.opHere (s : State) (c eng : Nat) (w : Word) (body : Env → Iss → Cx → OpRes) : OpRes :=
  body (s.env c) (s.issueAs c eng) ⟨s.issueCore c eng w, s.mem, [], false⟩

/-- The instruction issues as the operation says (R42, R55, R86): the core is as the operation leaves it but for its engines, the list
of what is in flight and the cycle up to which it has work of the step; the engine has moved past the instruction, and its next can issue `hold` cycles later; an instruction that does not
complete at once is in flight, with its completion cycle and its signal. The part takes over the core, memory and the effects. -/
def State.Issues (s : State) (c eng : Nat) (w : Word) (r : OpRes) (o : Result) : Prop :=
  ∃ y : Cx, o = .next (s.take c y) ∧ y.mem = r.x.mem ∧ y.effs = r.x.effs ∧
    y.c = { r.x.c with engs := y.c.engs, infl := y.c.infl, busyTo := y.c.busyTo } ∧
    (y.c.eng eng).headFree = s.issueCycle c eng + r.hold ∧
    (y.c.eng eng).ctx (s.issueAs c eng).ctx =
      { (r.after.getD (((r.x.c.eng eng).ctx (s.issueAs c eng).ctx).take w).close).onward with
        begun := (s.env c).begunAfter eng (s.issueAs c eng).ctx (s.issueAs c eng).pc ((r.x.c.eng eng).ctx (s.issueAs c eng).ctx).begun } ∧
    (∀ d, r.due = some d → s.issueCycle c eng < d →
      ⟨(s.core c).nextTid, eng, (s.issueAs c eng).ctx, (s.issueAs c eng).pc, some d, bits w 52 51, bits w 50 45, r.acts⟩ ∈ y.c.infl) ∧
    (r.due = none →
      ⟨(s.core c).nextTid, eng, (s.issueAs c eng).ctx, (s.issueAs c eng).pc, none, bits w 52 51, bits w 50 45, r.acts⟩ ∈ y.c.infl)

/-- An operation passes its checks, completes in the cycle `due` and holds the head for `hold` cycles. -/
def OpRes.lasts (r : OpRes) (due hold : Nat) : Prop := r.errs = [] ∧ r.due = some due ∧ r.hold = hold

/-! ### What a core's work leaves alone -/

/-- Everything of the part but its time, its programs, its cores, its memory and its dictionary is as before. -/
def State.sameBeside (s t : State) : Prop :=
  t = { s with
    time := t.time, half := t.half, slew := t.slew, slewNs := t.slewNs, cyc := t.cyc, frame := t.frame, rest := t.rest, progs := t.progs
    cores := t.cores, mem := t.mem, dict := t.dict }

/-- Two cores are equal but for what standing still counts: regulator tokens, feed-stall and outbound-stall cycles (R91, R278, R281). -/
def Core.sameWork (a b : Core) : Prop :=
  b = { a with
    st := { a.st with feedStall := b.st.feedStall }
    te := { a.te with regs := b.te.regs, outStall := b.te.outStall } }

/-- What the passing of time does: programs count their stall cycles (R425), standing cores their tokens and stall cycles, and 0x1010.0E
the link stalls; nothing else but the time itself moves. -/
structure State.timeOnly (s t : State) : Prop where
  mem : t.mem = s.mem
  beside : s.sameBeside t
  cores : ∀ k, (s.core k).sameWork (t.core k)
  progs : ∀ n, (t.prog n).map (fun p => { p with stallCycles := 0, stepStall := 0, stalls := [] }) =
    (s.prog n).map (fun p => { p with stallCycles := 0, stepStall := 0, stalls := [] })
  dict : ∀ k d, k ≠ odKey 0x1010 0xE 0 → lookupL d t.dict.entries k = lookupL d s.dict.entries k

/-- The outcome is the next state in which core `c` is `k`, and only time has passed elsewhere: memory, the other cores, the queues and
everything else are as before. -/
def State.worked (s : State) (c : Nat) (k : Core) (o : Result) : Prop := ∃ t, o = .next t ∧ (s.setCore c k).timeOnly t

/-- The instruction `w` of the SE has issued, and completed in its issue cycle (R78): register `d` holds `v`, unless it is s0, whose
writes are discarded (R94); every other register, and everything else of the core beside its engines, is as the instruction found it, but that
an earlier instruction's write of the same register in the same cycle is lost (R66); the SE can issue again in the next cycle; the core has work of the
step up to then. -/
def State.wroteSreg (s : State) (c : Nat) (w : Word) (d : BitVec 5) (v : PWord) (o : Result) : Prop :=
  ∃ k : Core, s.worked c k o ∧
    (∀ r : BitVec 5, k.sreg r.toNat = if r = d ∧ d ≠ 0 then v else (s.core c).sreg r.toNat) ∧
    k = { s.issueCore c 0 w with engs := k.engs, infl := k.infl, sregs := k.sregs, pend := k.pend, busyTo := k.busyTo } ∧
    k.pend = (s.core c).pend.filter (fun p => !(d != 0 && p.sets (s.issueCycle c 0) d.toNat)) ∧
    (k.eng 0).headFree = s.issueCycle c 0 + 1

/-- The engines of core `c` work, its program is not being stopped, and no message of the core is about to leave the chip. -/
structure State.Works (s : State) (c : Nat) : Prop where
  core : c < 144
  runs : s.coreRuns c = true
  kept : ∀ n p, (s.core c).prog = some n → s.prog n = some p → p.stopping = false
  calm : ((s.core c).te.net.filter (s.goesOff (s.core c))) = []

/-- The instruction `w` has issued and writes in later cycles what `l` lists (R65, R67): until then every register and word of the core is as
before; it completes in cycle `due`, and the next instruction of the engine can issue in the cycle after it. -/
def State.later (s : State) (c eng : Nat) (w : Word) (due : Nat) (l : List Pend) (o : Result) : Prop :=
  ∃ k : Core, s.worked c k o ∧
    k = { s.issueCore c eng w with engs := k.engs, infl := k.infl, pend := (s.core c).pend ++ l, busyTo := k.busyTo } ∧
    (k.eng eng).headFree = s.issueCycle c eng + 1 ∧
    (∃ i ∈ k.infl, i.tid = (s.core c).nextTid ∧ i.eng = eng ∧ i.due = some due)

/-- Nothing is under way in a core: no delayed write, no drain, no stream. -/
def Core.still (c : Core) : Prop := c.pend = [] ∧ c.ope.drain = none ∧ c.mve.streams = []

/-! ### Submission entries -/

/-- The entry `e` of operation `op` is the next that host queue `q` may begin, it is well formed, and no check of its
block fails (R257, R385, R387). -/
structure State.Begins (s : State) (q : Nat) (e : Entry) (op : Nat) : Prop where
  queue : q < 4096
  next : s.nextEntry q = some e
  op : e.op = op
  defined : e.defined = true
  plain : e.reserved = false
  clean : s.entryPoisoned e = false
  sound : s.latentFault (s.entryAddr q e.num) 64 = .none

/-! ### What a reset of the core-group domains leaves -/

/-- Every program has ended, the chip cycle count and the light-path frame are 0, and every core is as after reset; a failed core
stays failed (R472, R488, R525). -/
structure State.FreshCores (s t : State) : Prop where
  progs : ∀ n, t.prog n = none
  cyc : t.cyc = 0
  frame : t.frame = 0
  cores : ∀ c, t.core c = .reset ∨ t.core c = { Core.reset with failed := true }
  failed : ∀ c, (s.core c).failed = true → (t.core c).failed = true

/-! ### Frames of Irair -/

/-- A well-formed request frame of version 1 reaches this part's node and UDP port of the management segment, and no time limit of Irair has passed
(R503, R504, R530). -/
structure State.Hears (s : State) (f : Sys2Proof.Frame) : Prop where
  managed : s.managed = true
  node : f.ep = .segment (s.val 0x1000 1) (s.val 0x1020 1)
  named : s.val 0x1000 1 ≠ 0xFF
  due : s.expireIr = s
  good : badFrame f = false
  version : f.version = 1

/-- The part as the operation of a request finds it: the request of session `id` is its latest (R512). -/
def State.asked (s : State) (id : Nat) (i : IrSess) (f : Sys2Proof.Frame) : State :=
  { s with irs := s.irs.put id { i with since := s.time, lastSeq := f.seq, lastReq := f.reqId } }

/-- A fresh request of the open session `i`, in sequence and rightly tagged, in one frame (R505, R512). -/
structure State.Asks (s : State) (op : Nat) (i : IrSess) (f : Sys2Proof.Frame) : Prop where
  hears : s.Hears f
  sess : s.irSess f.session = some i
  tag : tagOk f op i.key = true
  seq : f.seq = (i.lastSeq + 1) % 2 ^ 32
  new : i.lastSeq = 0 ∨ f.seq ≠ i.lastSeq ∨ f.reqId ≠ i.lastReq
  some : f.session ≠ 0
  whole : f.frag = 0 ∧ nbit f.flags 2 = false

end Sys2Proof.Machine
end

