-- ==== Sys2Proof/Certificates/Slice0/Obligations.lean ====
section
/-! DEFINITION. The statements about the model, one definition each; OBLIGATIONS.json says which rule of the spec each rests on. -/

open Sys2Proof Sys2Proof.Machine

/-! ### The queue of commands -/

/-- O1. A step takes the command at the front of the queue and runs it on the state with the queue's rest. -/
def Obligations.StepRunsFront : Prop :=
  ∀ (s : State) (c : Instr) (rest : List Instr), step { s with pending := c :: rest } = exec c { s with pending := rest }

/-- O2. On an empty queue one core cycle passes (the model's choice, log 7): the step answers a next state with an empty queue. While no program is
loaded, or the part is not in operation (no clock, in reset, in a power state, exiting one, or frozen) but has its 3.3 V, the time counter, where no offset
is left for it to slew, moves on by 0.5 ns, modulo 2^64 ns (R6, R7, R432). -/
def Obligations.StepIdles : Prop :=
  ∀ s : State, s.pending = [] → ∃ t, step s = .next t ∧ t.pending = [] ∧
    (s.live = false ∨ s.progs.entries = [] → s.pins.held &&& 8 = 0 → s.slew = 0 → t.time = (s.time + b2n s.half) % 2 ^ 64 ∧ t.half = !s.half)

/-- O3. No command whose operands name units the part has ever stops the machine: it answers a next state, in every state. No command is
refused, and one that stops with a fault names a unit the part does not have. -/
def Obligations.WellFormedGoesOn : Prop :=
  ∀ (c : Instr) (s : State), (wellFormed c = true → ∃ t, exec c s = .next t) ∧ (∀ r, exec c s ≠ .refused r) ∧
    (∀ f, exec c s = .fault f → wellFormed c = false)

/-- O5. A command's effect is on everything but the queue. -/
def Obligations.ExecLeavesQueue : Prop := ∀ (c : Instr) (s t : State), exec c s = .next t → t.pending = s.pending

/-! ### Coupling state -/

/-- O4. The flags word holds flag n in bit n, and its bits [71:64] and the words of a core after reset read as zero (R47); a counter word holds its counter.
A counter increment from 2^36 − 1 wraps to 0 and sets CNT_WRAP, any other adds 1, and the counter's target is not changed (R59). -/
def Obligations.FlagsAndCounters : Prop :=
  ∀ (c : Core) (n : Nat),
    (∀ i, i < 72 → (c.ctlRead 0x0008).getLsbD i = (decide (i < 64) && c.coup.flag i)) ∧ Core.reset.ctlRead 0x0008 = 0 ∧
    (n < 16 → c.coup.cnt.get 0 n < 2 ^ 36 → (c.ctlRead (0x0080 + 8 * n)).toNat = c.coup.cnt.get 0 n) ∧
    (n < 16 → c.coup.tgt.get 0 n < 2 ^ 36 → (c.ctlRead (0x0100 + 8 * n)).toNat = c.coup.tgt.get 0 n) ∧
    (c.coup.cnt.get 0 n = 2 ^ 36 - 1 → (c.bump n).coup.cnt.get 0 n = 0 ∧ (c.bump n).st.cntWrap = true) ∧
    (c.coup.cnt.get 0 n < 2 ^ 36 - 1 → (c.bump n).coup.cnt.get 0 n = c.coup.cnt.get 0 n + 1 ∧ (c.bump n).st = c.st) ∧
    (c.bump n).coup.tgt = c.coup.tgt ∧ ∀ m, m ≠ n → (c.bump n).coup.cnt.get 0 m = c.coup.cnt.get 0 m

/-! ### Invariants of every step -/

/-- O6. At most one bit of the primacy token is ever set (R535, R538). -/
def Obligations.OnePrimary : Prop := ∀ s t : State, s.tokenOk = true → step s = .next t → t.tokenOk = true

/-- O7. Fuses only ever advance (R543): no step takes back a revocation, lowers the security version, or changes anything else of the
fuses. -/
def Obligations.FusesAdvance : Prop := ∀ s t : State, step s = .next t → s.fuse.advances t.fuse

/-- O8. Near and far memory keep their canonical form, so that equal memories are equal data. -/
def Obligations.MemoryStaysCanonical : Prop := ∀ s t : State, s.memOk = true → step s = .next t → t.memOk = true

/-- O9. The state after a power-on reset meets the invariants, and its queue is empty. -/
def Obligations.ResetMeetsInvariants : Prop :=
  State.reset.tokenOk = true ∧ State.reset.memOk = true ∧ State.reset.pending = [] ∧ State.reset.fuse.advances State.reset.fuse

/-- O10. What the spec says of the part right after a power-on reset: the time counter and the chip cycle count stand at 0 (R432, R472);
every core reads PROFILE 0b11, no flag, counter, loop count or TE address register is set, and every engine is Off (R46 to R50, R81, R101);
s0 reads as zero (R94); chip_id is 0xFFFF (R377) and node_id 0xFF (R530); no Irair session is open; no event is logged (R467); neither controller
has claimed primacy and the generation is 0 (R535); alert_tiers is 0x38 (R467). -/
def Obligations.ResetValues : Prop :=
  let s := State.reset
  s.time = 0 ∧ s.cyc = 0 ∧
    (∀ c, (s.core c).profile = 3 ∧ (s.core c).prog = none ∧ (∀ o, 0x80 ≤ o → o ≤ 0x178 → (s.core c).ctlRead o = 0) ∧
      (s.core c).ctlRead 0x8 = 0 ∧ (∀ e, ((s.core c).eng e).st = .off) ∧ (s.core c).sreg 0 = ⟨0, false⟩ ∧
      (∀ n, (s.core c).areg n = 0) ∧ (∀ n, (s.core c).loopCnt.get 0 n = 0)) ∧
    s.chipId = 0xFFFF ∧ s.val 0x1000 1 = 0xFF ∧ (∀ i, s.irSess i = none) ∧ s.val 0x7000 1 = 0 ∧
    s.managed = false ∧ s.val 0x1000 5 = 0 ∧ s.val 0x7000 5 = 0x38

/-! ### The scalar engine -/

/-- O11. The two-register operations of the SE (R94, R96, R99): D takes the sum, difference, bitwise combination, shift or comparison of A
and B, wrapping modulo 2^72; a shift amount is B[6:0], and the result carries the poison of either operand. The instruction completes in its
issue cycle, writes no other register, and s0 discards what is written to it. -/
def Obligations.ScalarRegisterOps : Prop :=
  ∀ (s : State) (c : Nat) (ctl : Ctl) (d a b : BitVec 5),
    let x := (s.core c).sreg a.toNat
    let y := (s.core c).sreg b.toNat
    let p := x.p || y.p
    let n := y.v.toNat % 128
    (s.Head c 0 (wordAdd ctl d a b) → s.wroteSreg c (wordAdd ctl d a b) d ⟨x.v + y.v, p⟩ (exec (.add c ctl d a b) s)) ∧
    (s.Head c 0 (wordSub ctl d a b) → s.wroteSreg c (wordSub ctl d a b) d ⟨x.v - y.v, p⟩ (exec (.sub c ctl d a b) s)) ∧
    (s.Head c 0 (wordAnd ctl d a b) → s.wroteSreg c (wordAnd ctl d a b) d ⟨x.v &&& y.v, p⟩ (exec (.and c ctl d a b) s)) ∧
    (s.Head c 0 (wordOr ctl d a b) → s.wroteSreg c (wordOr ctl d a b) d ⟨x.v ||| y.v, p⟩ (exec (.or c ctl d a b) s)) ∧
    (s.Head c 0 (wordXor ctl d a b) → s.wroteSreg c (wordXor ctl d a b) d ⟨x.v ^^^ y.v, p⟩ (exec (.xor c ctl d a b) s)) ∧
    (s.Head c 0 (wordShl ctl d a b) → s.wroteSreg c (wordShl ctl d a b) d ⟨x.v <<< n, p⟩ (exec (.shl c ctl d a b) s)) ∧
    (s.Head c 0 (wordShr ctl d a b) → s.wroteSreg c (wordShr ctl d a b) d ⟨x.v >>> n, p⟩ (exec (.shr c ctl d a b) s)) ∧
    (s.Head c 0 (wordSra ctl d a b) → s.wroteSreg c (wordSra ctl d a b) d ⟨x.v.sshiftRight n, p⟩ (exec (.sra c ctl d a b) s)) ∧
    (s.Head c 0 (wordCmplt ctl d a b) →
      s.wroteSreg c (wordCmplt ctl d a b) d ⟨if x.v.toInt < y.v.toInt then 1 else 0, p⟩ (exec (.cmplt c ctl d a b) s)) ∧
    (s.Head c 0 (wordCmpltu ctl d a b) →
      s.wroteSreg c (wordCmpltu ctl d a b) d ⟨if x.v.toNat < y.v.toNat then 1 else 0, p⟩ (exec (.cmpltu c ctl d a b) s)) ∧
    (s.Head c 0 (wordCmpeq ctl d a b) →
      s.wroteSreg c (wordCmpeq ctl d a b) d ⟨if x.v = y.v then 1 else 0, p⟩ (exec (.cmpeq c ctl d a b) s))

/-- O12. The immediate operations of the SE (R94 to R96, R99): ADDI and ANDI take the immediate sign-extended to 72 bits, SHLI and SHRI shift
by it, MOVI writes its 40 bits sign-extended and clears the poison, and MOVH replaces D[71:40] and keeps the rest of D. -/
def Obligations.ScalarImmediateOps : Prop :=
  ∀ (s : State) (c : Nat) (ctl : Ctl) (d a : BitVec 5) (i : BitVec 35) (n : BitVec 7) (j : BitVec 40) (h : BitVec 32),
    let x := (s.core c).sreg a.toNat
    let o := (s.core c).sreg d.toNat
    (s.Head c 0 (wordAddi ctl d a i) →
      s.wroteSreg c (wordAddi ctl d a i) d ⟨x.v + i.signExtend 72, x.p⟩ (exec (.addi c ctl d a i) s)) ∧
    (s.Head c 0 (wordAndi ctl d a i) →
      s.wroteSreg c (wordAndi ctl d a i) d ⟨x.v &&& i.signExtend 72, x.p⟩ (exec (.andi c ctl d a i) s)) ∧
    (s.Head c 0 (wordShli ctl d a n) → s.wroteSreg c (wordShli ctl d a n) d ⟨x.v <<< n.toNat, x.p⟩ (exec (.shli c ctl d a n) s)) ∧
    (s.Head c 0 (wordShri ctl d a n) → s.wroteSreg c (wordShri ctl d a n) d ⟨x.v >>> n.toNat, x.p⟩ (exec (.shri c ctl d a n) s)) ∧
    (s.Head c 0 (wordMovi ctl d j) → s.wroteSreg c (wordMovi ctl d j) d ⟨j.signExtend 72, false⟩ (exec (.movi c ctl d j) s)) ∧
    (s.Head c 0 (wordMovh ctl d h) →
      s.wroteSreg c (wordMovh ctl d h) d ⟨h ++ o.v.extractLsb' 0 40, o.p⟩ (exec (.movh c ctl d h) s))

/-- O13. MUL, LD and CWR (R65, R68, R96 to R99): D takes its value at the end of the completion cycle, 3, 6 and 2 cycles counted with the issue
cycle; MUL the low 72 bits of the product, LD the word of the own scratchpad with its poison mark, as its read of the issue cycle finds it, CWR the
control word as it stands in the issue cycle. Until then every register keeps its value. -/
def Obligations.ScalarLoads : Prop :=
  ∀ (s : State) (c : Nat) (ctl : Ctl) (d a b : BitVec 5) (i : BitVec 35) (off : Nat),
    let x := (s.core c).sreg a.toNat
    let y := (s.core c).sreg b.toNat
    let t := s.issueCycle c 0
    let n := s.issueAs c 0
    let o := (s.core c).seAddr a.toNat i
    (s.Head c 0 (wordMul ctl d a b) →
      s.later c 0 (wordMul ctl d a b) (t + 2) [⟨t + 2, n, .sreg d.toNat ⟨x.v * y.v, x.p || y.p⟩⟩] (exec (.mul c ctl d a b) s)) ∧
    (s.Head c 0 (wordLd ctl d a i) → x.p = false → seScratch (s.env c) o = some off → (s.core c).scr.wordsOn [off / 8] = true →
      s.later c 0 (wordLd ctl d a i) (t + 5) [⟨t, n, .ld d.toNat off⟩] (exec (.ld c ctl d a i) s)) ∧
    (∀ (z : Cx) (key : RngKey), z.c.scr.upset.entries = [] → (z.c.scr.cell (off / 8)).wr = true →
      z.read key t ⟨t, n, .ld d.toNat off⟩ =
        { z with c := { z.c with
          pend := z.c.pend ++ [⟨t + 5, n, .sreg d.toNat ⟨(z.c.scr.cell (off / 8)).v, (z.c.scr.cell (off / 8)).p⟩⟩] } }) ∧
    (s.Head c 0 (wordCwr ctl d a i) → x.p = false → o ≤ 0xFFF8 → o % 8 = 0 →
      s.later c 0 (wordCwr ctl d a i) (t + 1)
        [⟨t + 1, n, .sreg d.toNat ⟨(s.issueCore c 0 (wordCwr ctl d a i)).ctlRead o, (s.core c).ctlPoison o⟩⟩] (exec (.cwr c ctl d a i) s))

/-- O14. ST and CWW (R57, R65, R68, R97, R98): the word of the register, with its poison, lands in the own scratchpad in the fourth cycle; a
permitted control word is written at the end of the second. No register changes. -/
def Obligations.ScalarStores : Prop :=
  ∀ (s : State) (c : Nat) (ctl : Ctl) (d a : BitVec 5) (i : BitVec 35) (off : Nat),
    let x := (s.core c).sreg a.toNat
    let v := (s.core c).sreg d.toNat
    let t := s.issueCycle c 0
    let n := s.issueAs c 0
    let o := (s.core c).seAddr a.toNat i
    (s.Head c 0 (wordSt ctl d a i) → x.p = false → seScratch (s.env c) o = some off → (s.core c).scr.wordsOn [off / 8] = true →
      (s.core c).wordProtected (s.env c).step (off / 8) = false →
      s.later c 0 (wordSt ctl d a i) (t + 3) [⟨t + 3, n, .scr off (wordNts v.v v.p)⟩] (exec (.st c ctl d a i) s)) ∧
    (s.Head c 0 (wordCww ctl d a i) → x.p = false → v.p = false → o ≤ 0xFFF8 → o % 8 = 0 → cwwRefused o v.v = false →
      s.later c 0 (wordCww ctl d a i) (t + 1) [⟨t + 1, n, .ctl o v.v⟩] (exec (.cww c ctl d a i) s))

/-- O15. NOP, STEP and HALT complete in their issue cycle (R77, R78, R87, R100). NOP changes nothing else; after STEP the SE issues nothing
more until the commit; HALT outside a loop ends the stream of the context in turn, and the engine, its only context ended, issues nothing more: it
is Halted as soon as none of its instructions is in flight. -/
def Obligations.CommonInstructions : Prop :=
  ∀ (s : State) (c eng : Nat) (ctl : Ctl), eng < 6 →
    (s.Head c eng (wordNop eng ctl) → ∃ k : Core, s.worked c k (exec (.nop c eng ctl) s) ∧
      k = { s.issueCore c eng (wordNop eng ctl) with engs := k.engs, infl := k.infl, busyTo := k.busyTo } ∧ (k.eng eng).headFree = s.issueCycle c eng + 1) ∧
    (s.Head c 0 (wordStep ctl) → ∃ k : Core, s.worked c k (exec (.step c ctl) s) ∧
      k = { s.issueCore c 0 (wordStep ctl) with engs := k.engs, infl := k.infl, busyTo := k.busyTo } ∧ (k.eng 0).boundary = true ∧
      (∀ env : Env, (k.eng 0).boundaryHeld env 0 = true)) ∧
    (s.Head c eng (wordHalt eng ctl) → ((s.core c).eng eng).here.levels = [] → ((s.core c).eng eng).nctx = 1 →
      ((s.core c).eng eng).cur = 0 → ∃ k : Core, s.worked c k (exec (.halt c eng ctl) s) ∧
      k = { s.issueCore c eng (wordHalt eng ctl) with engs := k.engs, infl := k.infl, busyTo := k.busyTo } ∧
      ((k.eng eng).ctx 0).ended = true ∧ (k.eng eng).active = false ∧
      ((∀ i ∈ k.infl, i.eng ≠ eng) → (k.eng eng).st = .halted))

/-- O16. LOOP latches its count register (R81 to R86): with a count above zero a level opens whose body is the next `body` instructions; with
zero and the body in the queue, the body is discarded unissued and the program counter passes it. -/
def Obligations.LoopOpensOrSkips : Prop :=
  ∀ (s : State) (c eng : Nat) (ctl : Ctl) (lc : BitVec 3) (body : BitVec 9), eng < 6 →
    let w := wordLoop eng ctl lc body
    let k0 := ((s.core c).eng eng).here
    let n := (s.core c).loopCnt.get 0 (8 * eng + lc.toNat)
    s.Head c eng w → ((s.core c).eng eng).badLoop k0 body.toNat = false →
      ∃ k : Core, s.worked c k (exec (.loop c eng ctl lc body) s) ∧
        k = { s.issueCore c eng w with engs := k.engs, infl := k.infl, busyTo := k.busyTo } ∧ (k.eng eng).headFree = s.issueCycle c eng + 1 ∧
        (0 < n → (k.eng eng).here.levels = ⟨n, k0.pc + 1, k0.pc + 1 + body.toNat⟩ :: k0.levels ∧ (k.eng eng).here.pc = k0.pc + 1) ∧
        (n = 0 → k0.levels = [] → body.toNat < k0.queue.length →
          (k.eng eng).here.levels = [] ∧ (k.eng eng).here.pc = k0.pc + 1 + body.toNat ∧
          (k.eng eng).here.queue = k0.queue.drop (1 + body.toNat))

/-- O17. A program error stops its program on every core (R79, R87, R419): the program is gone, and each of its cores has PROG_ERR set, no
program, nothing in flight, and every engine Halted or Off. -/
def Obligations.ProgramErrorStops : Prop :=
  ∀ (s : State) (n core : Nat) (e : PErr) (eng ctx pc d : Nat) (p : Prog), s.prog n = some p →
    let t := s.programError n core e eng ctx pc d
    t.prog n = none ∧ ∀ c ∈ p.cores, (t.core c).st.progErr = true ∧ (t.core c).prog = none ∧ (t.core c).infl = [] ∧ (t.core c).pend = [] ∧
      ∀ g, ((t.core c).eng g).st = .off ∨ ((t.core c).eng g).st = .halted

/-- O18. What comes to pass at the head of a queue and at a completion (R52, R55, R62, R63, R578). INSTRUCTION_AT_HEAD: a failed check of the head
is that program error; with the checks passed and the wait unsatisfied the engine is Waiting. COMPLETION_CYCLE: the one instruction in flight of a
core in which nothing else is under way completes, and its signal sets its flag. FLAG_TIMEOUT raises the trigger of the context that was held first, in the
first cycle in which its hold has lasted more than wait_timeout cycles, and SLIP_LIMIT_EXCEEDED a schedule slip. -/
def Obligations.HeadAndCompletionEvents : Prop :=
  ∀ (s : State) (c eng : Nat) (w : Word), s.Works c → eng < 6 →
    let k := s.core c
    let g := k.eng eng
    let t := s.issueCycle c eng
    let env := s.env c
    (g.active = true → g.here.head = some w → k.quietTo env t = true → (k.advance t).lowerFirst env eng = false →
      g.here.held = none → g.here.waited = false →
      (∀ e, headCheck k.coup eng w = some e →
        ∃ y : Cx, exec (.instructionAtHead c eng) s = .next (s.take c y) ∧ y.c = k.advance t ∧ y.mem = s.mem ∧
          y.effs = [(t, .err e eng g.cur g.here.pc 0)]) ∧
      (headCheck k.coup eng w = none → g.boundaryHeld env eng = false → k.coup.waitOk eng (waitOf w).1 (waitOf w).2 = false →
        ∃ k' : Core, s.worked c k' (exec (.instructionAtHead c eng) s) ∧ (k'.eng eng).st = .waiting ∧ (k'.eng eng).here.held = some t ∧
          (k'.eng eng).here.head = some w ∧ k'.coup = k.coup ∧ k'.sregs = k.sregs ∧
          ((k'.eng eng).here.scheduled = bit w 62))) ∧
    (∀ i d, k.still → k.infl = [i] → i.due = some d → k.now ≤ d → k.quietTo env d = true → (k.advance d).blocked env = false →
      i.skind = 1 → i.acts = [] → k.coup.flag i.sid = false →
      ∃ k' : Core, s.worked c k' (exec (.completionCycle c) s) ∧ k'.infl = [] ∧ k'.now = d + 1 ∧ k'.coup = k.coup.setFlag i.sid true ∧
        k'.sregs = k.sregs) ∧
    (∀ x h l, eng ≠ 5 → g.holds = (x, h) :: l → k.now ≤ h + env.waitTimeout → k.quietTo env (h + env.waitTimeout) = true →
      k.stillHeld eng x = true →
      ∃ y : Cx, exec (.flagTimeout c eng) s = .next (s.take c y) ∧
        y.effs = [(h + env.waitTimeout, .trig .flagTimeout eng x (g.ctx x).pc 0)] ∧ y.c = k.advance (h + env.waitTimeout)) ∧
    (env.free = false → 0 < env.slipLimit → env.slipLimit < k.slipCycles →
      ∃ y : Cx, exec (.slipLimitExceeded c) s = .next (s.take c y) ∧ y.c = k ∧ ∃ h x pc, y.effs = [(k.now, .err .scheduleSlip h x pc 0)])

/-- O19. A write takes effect as it was issued (R65, R67, R94, R237): each nonet of the scratchpad it covers holds its new value, every other nonet, memory and the
registers are as before; an SE register takes its value, and s0 none. -/
def Obligations.ScratchpadReadsBack : Prop :=
  ∀ (x : Cx) (env : Env) (n : Iss) (due off a : Nat) (data : List PNt) (d : Nat) (v : PWord),
    let y := x.apply env due ⟨due, n, .scr off data⟩
    let z := x.apply env due ⟨due, n, .sreg d v⟩
    (y.c.scr.nt a).v = (if off ≤ a ∧ a < off + data.length then (data.getD (a - off) ⟨0, false⟩).v else (x.c.scr.nt a).v) ∧
    y.mem = x.mem ∧ y.c = { x.c with scr := y.c.scr } ∧
    z.c.sreg a = (if a = d ∧ d ≠ 0 then v else x.c.sreg a) ∧ z = { x with c := { x.c with sregs := z.c.sregs } }

/-- O20. Near and far memory read back what is written (R14, R249, R260), where no mirrored region is met: each nonet written holds its new value, every other nonet
of memory its old one, and a block takes the poison of what is written to it. Where one mirrored region is in use, what is written into its primary copy, in part
or whole, stands in its mirror copy too. -/
def Obligations.MemoryReadsBack : Prop :=
  ∀ (m : Mem) (a b : Nat) (data : List PNt),
    ((∀ r ∈ m.mirrors, r.state ≠ 0 → a + data.length ≤ r.primary ∨ r.primary + r.size ≤ a) →
      ((m.write a data).readNt b).v =
        (if a ≤ b ∧ b < a + data.length then (data.getD (b - a) ⟨0, false⟩).v else (m.readNt b).v) ∧
      (b / 64 < a / 64 ∨ (a + data.length ≤ b / 64 * 64) → (m.write a data).poisoned b = m.poisoned b) ∧
      (a ≤ b / 64 * 64 → b / 64 * 64 + 64 ≤ a + data.length →
        (m.write a data).marks.get false (b / 64) = (((data.drop (b / 64 * 64 - a)).take 64).any (·.p)))) ∧
    (∀ r, m.mirrors = [r] → r.state ≠ 0 → a ≤ b → b < a + data.length → r.primary ≤ b → b < r.primary + r.size →
      ((m.write a data).readNt (r.mirror + (b - r.primary))).v = (data.getD (b - a) ⟨0, false⟩).v)

/-! ### The transfer engine -/

/-- O21. COPY and QLAND, once their checks pass (R68, R104, R251, R272): a local copy started in S, the first cycle the local path is free, completes in
S + 5 + ⌈n ÷ 144⌉ and frees the path in the next cycle; a read of near memory completes 96 cycles after its last request, a write 24; QLAND completes in
S + 3 + ⌈n ÷ 144⌉. The next instruction can issue in the next cycle. -/
def Obligations.TransferTiming : Prop :=
  ∀ (s : State) (c : Nat) (ctl : Ctl) (dst src : BitVec 5) (dring incd incs : Bool) (size : BitVec 26) (queue : BitVec 4),
    let k := s.core c
    let n := size.toNat
    let t := s.issueCycle c 1
    let wc := wordCopy ctl dst src dring incd incs size
    let rc := s.opHere c 1 wc fun env => opCopy env dst.toNat src.toNat dring incd incs n
    let near := reqCycle (max t k.te.nearFree) (cdiv n 96 - 1)
    let wq := wordQland ctl dst queue dring incd
    let rq := s.opHere c 1 wq fun env => opQland env dst.toNat queue.toNat dring incd
    (s.Head c 1 wc → rc.errs = [] →
      s.Issues c 1 wc rc (exec (.copy c ctl dst src dring incd incs size) s) ∧ 0 < n ∧ rc.hold = 1 ∧
        (∀ o, copyEnd (s.env c) s.mem (k.areg src.toNat) n = .scratch o →
          (dring = true ∨ ∃ q, copyEnd (s.env c) s.mem (k.areg dst.toNat) n = .scratch q) →
          rc.lasts (max t k.te.localFree + 5 + cdiv n 144) 1 ∧ rc.x.c.te.localFree = max t k.te.localFree + 6 + cdiv n 144) ∧
        (∀ a, copyEnd (s.env c) s.mem (k.areg src.toNat) n = .near a → rc.lasts (near + 96) 1 ∧ rc.x.c.te.nearFree = near + 97) ∧
        (∀ a, dring = false → copyEnd (s.env c) s.mem (k.areg dst.toNat) n = .near a →
          rc.lasts (near + 24) 1 ∧ rc.x.c.te.nearFree = near + 25 ∧ n % 64 = 0)) ∧
    (s.Head c 1 wq → rq.errs = [] →
      s.Issues c 1 wq rq (exec (.qland c ctl dst queue dring incd) s) ∧ (k.te.dq.get .reset queue.toNat).st = 2 ∧
        rq.lasts (max t k.te.localFree + 3 + cdiv (k.te.dq.get .reset queue.toNat).size 144) 1 ∧
        CompAct.qEmpty queue.toNat ∈ rq.acts)

/-- O22. LOADQ makes an Empty decoupling queue Busy (R271); STORE, MCAST and LIGHT wait for the start of their source read (R280, R283, R285); none has
its completion cycle fixed at its issue (R68), and each lets the next instruction issue in the next cycle. -/
def Obligations.TransferRequests : Prop :=
  ∀ (s : State) (c : Nat) (ctl : Ctl) (dst src : BitVec 5) (incd incs : Bool) (size : BitVec 26) (len : BitVec 11) (queue : BitVec 4)
    (mset : BitVec 6) (dcore : BitVec 8) (few : BitVec 6),
    let k := s.core c
    let wl := wordLoadq ctl src queue incs len
    let rl := s.opHere c 1 wl fun env => opLoadq env src.toNat queue.toNat incs len.toNat
    let ws := wordStore ctl dst src incd incs size
    let rs := s.opHere c 1 ws fun env => opStore env dst.toNat src.toNat incd incs size.toNat
    let wm := wordMcast ctl dst src mset size
    let rm := s.opHere c 1 wm fun env => opMcast env dst.toNat src.toNat mset.toNat size.toNat
    let wi := wordLight ctl src dcore few
    let ri := s.opHere c 1 wi fun env => opLight env src.toNat dcore.toNat few.toNat
    (s.Head c 1 wl → rl.errs = [] → s.Issues c 1 wl rl (exec (.loadq c ctl src queue incs len) s) ∧ rl.due = none ∧ rl.hold = 1 ∧
      (k.te.dq.get .reset queue.toNat).st = 0 ∧ (rl.x.c.te.dq.get .reset queue.toNat).st = 1 ∧
      (rl.x.c.te.dq.get .reset queue.toNat).size = len.toNat ∧ 0 < len.toNat ∧ len.toNat ≤ 1024) ∧
    (s.Head c 1 ws → rs.errs = [] → s.Issues c 1 ws rs (exec (.store c ctl dst src incd incs size) s) ∧ rs.due = none ∧ rs.hold = 1 ∧
      ∃ d, rs.x.c.te.sends = k.te.sends ++ [d] ∧ d.tid = k.nextTid ∧ d.size = size.toNat ∧ ∃ a, d.kind = .store a) ∧
    (s.Head c 1 wm → rm.errs = [] → s.Issues c 1 wm rm (exec (.mcast c ctl dst src mset size) s) ∧ rm.due = none ∧ rm.hold = 1 ∧
      ∃ d, rm.x.c.te.sends = k.te.sends ++ [d] ∧ d.tid = k.nextTid ∧ d.size = size.toNat ∧
        d.dests = (k.te.msets.get [] mset.toNat).map (·.1)) ∧
    (s.Head c 1 wi → ri.errs = [] → s.Issues c 1 wi ri (exec (.light c ctl src dcore few) s) ∧ ri.due = none ∧ ri.hold = 1 ∧
      0 < few.toNat ∧ few.toNat < 64 ∧
      ∃ d, ri.x.c.te.sends = k.te.sends ++ [d] ∧ d.tid = k.nextTid ∧ d.size = few.toNat ∧ d.kind = .light dcore.toNat)

/-! ### The outer-product engine -/

/-- O23. OCLR zeroes every accumulator of the shadow set, with its poison bit and update index, in its issue cycle (R125), and the live set is as before. -/
def Obligations.ClearShadow : Prop :=
  ∀ (s : State) (c : Nat) (ctl : Ctl), s.Head c 2 (wordOclr ctl) → (s.core c).pipeBusy (s.issueCycle c 2) = false →
    ∃ k : Core, s.worked c k (exec (.oclr c ctl) s) ∧
      (∀ r j, k.ope.shadow.get (144 * r + j) = .zero) ∧ k.ope.live = (s.core c).ope.live ∧
      k = { s.issueCore c 2 (wordOclr ctl) with
        engs := k.engs, infl := k.infl, busyTo := k.busyTo, ope := { (s.core c).ope with shadow := .zero, busyFrom := k.ope.busyFrom, busyTo := k.ope.busyTo } }

/-- O24. OSET sets one operand descriptor and leaves the others (R114); SWAP exchanges the live and shadow sets in its issue cycle (R122, R123), and with DRN its
set drains from cycle S + L − 1 on (R124). -/
def Obligations.DescriptorsAndSwap : Prop :=
  ∀ (s : State) (c : Nat) (ctl : Ctl) (n : BitVec 3) (h : BitVec 6) (orient turn half : Bool) (start : BitVec 16) (drn clr last : Bool),
    let o := (s.core c).ope
    let t := s.issueCycle c 2
    (s.Head c 2 (wordOset ctl n h orient turn half start) → ∃ k : Core,
      s.worked c k (exec (.oset c ctl n h orient turn half start) s) ∧
      (∀ m : BitVec 3, k.ope.desc m.toNat = if m = n then ⟨h.toNat, orient, turn, half, start.toNat⟩ else o.desc m.toNat) ∧
      k = { s.issueCore c 2 (wordOset ctl n h orient turn half start) with
        engs := k.engs, infl := k.infl, busyTo := k.busyTo, ope := { o with descs := k.ope.descs } }) ∧
    (s.Head c 2 (wordSwap ctl drn clr last) → (s.core c).pipeBusy t = false → (s.core c).insidePair t = false → ∃ k : Core,
      s.worked c k (exec (.swap c ctl drn clr last) s) ∧ k.ope.live = o.shadow ∧ k.ope.shadow = o.live ∧
      (drn = true → ∃ d, k.ope.drain = some d ∧ d.first = t + drainLatency (s.core c).profile - 1 ∧ d.clr = clr) ∧
      (drn = false → k.ope.drain = o.drain) ∧
      k = { s.issueCore c 2 (wordSwap ctl drn clr last) with
        engs := k.engs, infl := k.infl, busyTo := k.busyTo
        ope := { o with live := o.shadow, shadow := o.live, drain := k.ope.drain, busyFrom := k.ope.busyFrom, busyTo := k.ope.busyTo } })

/-- O25. The streams of the OPE, once their checks pass (R109, R110, R112, R119, R129): MMA and MMAQ hold the head for P × K cycles, P being 1, 4 or 16 for elements of
one, two or four nonets; a stream without a drain completes with its last add, in i₀ + P × K + 3; and their descriptors move on by K (R117). -/
def Obligations.StreamTiming : Prop :=
  ∀ (s : State) (c : Nat) (ctl : Ctl) (sa sb : BitVec 3) (m n : BitVec 8) (qm : BitVec 4) (m7 n7 : BitVec 7) (k : BitVec 16) (rnd msk : Bool)
    (swd : BitVec 2),
    let x := s.core c
    let t := s.issueCycle c 2
    let wm := wordMma ctl sa sb m n k rnd msk swd
    let rm := s.opHere c 2 wm fun _ => opMma sa.toNat sb.toNat m.toNat n.toNat k.toNat rnd msk swd.toNat
    let wq := wordMmaq ctl qm m7 n7 k rnd msk swd
    let rq := s.opHere c 2 wq fun _ => opMmaq qm.toNat m7.toNat n7.toNat k.toNat rnd msk swd.toNat
    let w := max 1 (max (x.descFmt (x.ope.desc sa.toNat)).size (x.descFmt (x.ope.desc sb.toNat)).size)
    let P := if w = 1 then 1 else if w = 2 then 4 else 16
    (s.Head c 2 wm → rm.errs = [] → s.Issues c 2 wm rm (exec (.mma c ctl sa sb m n k rnd msk swd) s) ∧
      0 < m.toNat ∧ m.toNat ≤ 144 ∧ 0 < n.toNat ∧ n.toNat ≤ 144 ∧ 0 < k.toNat ∧ rm.hold = P * k.toNat ∧
      (swd.toNat < 2 → rm.due = some (t + P * k.toNat + 3)) ∧
      (2 ≤ swd.toNat → rm.due = some (t + P * k.toNat + 4 + drainLatency x.profile - 1)) ∧
      (rm.x.c.ope.desc sa.toNat).start = (x.ope.desc sa.toNat).start + k.toNat ∧
      (rm.x.c.ope.desc sb.toNat).start = (x.ope.desc sb.toNat).start + k.toNat) ∧
    (s.Head c 2 wq → rq.errs = [] → s.Issues c 2 wq rq (exec (.mmaq c ctl qm m7 n7 k rnd msk swd) s) ∧
      0 < m7.toNat ∧ m7.toNat ≤ 72 ∧ 0 < n7.toNat ∧ n7.toNat ≤ 72 ∧ 0 < k.toNat ∧
      (rq.hold = k.toNat ∨ rq.hold = 4 * k.toNat ∨ rq.hold = 16 * k.toNat) ∧
      (swd.toNat < 2 → rq.due = some (t + rq.hold + 3)) ∧
      (∀ q, q < 4 → nbit qm.toNat q = true →
        (rq.x.c.ope.desc (2 * q)).start = (x.ope.desc (2 * q)).start + k.toNat ∧
        (rq.x.c.ope.desc (2 * q + 1)).start = (x.ope.desc (2 * q + 1)).start + k.toNat))

/-- O26. OMASK completes in i₀ + 7 and PRELOAD in i₀ + 149, once their checks pass (R68, R121, R126, R127): a PRELOAD keeps the shadow pipe busy until it completes. DRAIN_ROW lets the cycle of the next row of a
draining set pass: the row enters the drain's tile-queue entry, which row 0 takes, and is zeroed with CLR; after row 143 the drain has ended (R124, R128). -/
def Obligations.MaskPreloadDrain : Prop :=
  ∀ (s : State) (c : Nat) (ctl : Ctl) (h : BitVec 6) (off : BitVec 16) (m : BitVec 8),
    let t := s.issueCycle c 2
    let wo := wordOmask ctl h off
    let ro := s.opHere c 2 wo fun _ => opOmask h.toNat off.toNat
    let wp := wordPreload ctl h off m
    let rp := s.opHere c 2 wp fun _ => opPreload h.toNat off.toNat m.toNat
    (s.Head c 2 wo → ro.errs = [] → s.Issues c 2 wo ro (exec (.omask c ctl h off) s) ∧ ro.lasts (t + 7) 1) ∧
    (s.Head c 2 wp → rp.errs = [] → s.Issues c 2 wp rp (exec (.preload c ctl h off m) s) ∧ rp.lasts (t + 149) 1 ∧
      0 < m.toNat ∧ m.toNat ≤ 144 ∧ ∀ u, t ≤ u → u ≤ t + 149 → rp.x.c.ope.busy u = true) ∧
    (∀ dr, s.Works c → (s.core c).ope.drain = some dr →
      let o := (s.core c).ope
      let r := dr.rows.length
      let u := dr.first + r
      let slot := if r = 0 then o.tqNext else dr.slot
      (s.core c).now ≤ u → (s.core c).quietTo (s.env c) u = true → ((s.core c).advance u).stands (s.env c) = false →
      (∀ p ∈ (s.core c).pend, u < p.due) → (∀ i ∈ (s.core c).infl, i.dueBy u = true → i.acts = []) → r < 144 → (r = 0 → o.tqFill < 4) →
      ∃ y : Cx, exec (.drainRow c) s = .next (s.take c y) ∧ y.c.ope.tqRow slot r = o.shadow.row r ∧ y.c.ope.live = o.live ∧
        (∀ j, j < 144 → y.c.ope.shadow.get (144 * r + j) = if dr.clr then .zero else o.shadow.get (144 * r + j)) ∧
        y.c.ope.tqFill = (if r = 0 then o.tqFill + 1 else o.tqFill) ∧
        y.c.ope.drain = if r = 143 then none else some { dr with rows := dr.rows ++ [o.shadow.row r], slot := slot })

/-! ### The matrix-vector engine -/

/-- O27. MCFG sets the stream configuration in its issue cycle, LANES above 95 being taken as 95 (R146); FMT 3 is its one illegal operand (R145). -/
def Obligations.StreamConfiguration : Prop :=
  ∀ (s : State) (c : Nat) (ctl : Ctl) (fmt : BitVec 2) (scale : BitVec 9) (lanes : BitVec 7) (estart : BitVec 12),
    s.Head c 3 (wordMcfg ctl fmt scale lanes estart) → fmt ≠ 3 →
    ∃ k : Core, s.worked c k (exec (.mcfg c ctl fmt scale lanes estart) s) ∧
      k.mve.cfg.fmt = (if fmt = 0 then .n9 else if fmt = 1 then .n9e else .n18) ∧ k.mve.cfg.scale = scale.toInt ∧
      k.mve.cfg.lanes = (if 95 < lanes.toNat then 96 else lanes.toNat + 1) ∧ k.mve.cfg.estart = estart.toNat ∧
      k = { s.issueCore c 3 (wordMcfg ctl fmt scale lanes estart) with
        engs := k.engs, infl := k.infl, busyTo := k.busyTo, mve := { (s.core c).mve with cfg := k.mve.cfg } }

/-- O28. HLOAD, MSTREAM and MPOP, once their checks pass (R68, R147, R151 to R155): HLOAD of n elements, 144 ÷ w of which are read a cycle, completes in i₀ + 5 + ⌈n ÷ (144 ÷ w)⌉; an MSTREAM completes
100 cycles after its last request, or 106 with EMIT, and holds the head until that request; MPOP of n elements completes in i₀ + 3 + ⌈n ÷ (144 ÷ w)⌉ and releases an entry then. MSTREAM_GROUP_ADD
lets the cycle of a stream's next group pass, whose weights its requests have read; EMISSION its emission: an entry of the result queue for each vector, whose lanes and checksum
lane are then zero. -/
def Obligations.MatrixVectorTiming : Prop :=
  ∀ (s : State) (c : Nat) (ctl : Ctl) (v : BitVec 3) (h : BitVec 6) (eoff n k : BitVec 12) (soff : BitVec 11) (areg : BitVec 5)
    (inc solo rnd emit : Bool) (num : BitVec 7),
    let x := s.core c
    let t := s.issueCycle c 3
    let per := 144 / (x.handle h.toNat).fmt.size
    let wh := wordHload ctl v h eoff n soff
    let rh := s.opHere c 3 wh fun _ => opHload v.toNat h.toNat eoff.toNat (n.toNat + 1) soff.toNat
    let ws := wordMstream ctl areg inc v solo k rnd emit
    let rs := s.opHere c 3 ws fun env => opMstream env areg.toNat inc v.toNat solo (k.toNat + 1) rnd emit
    let last := reqCycle (max t x.te.nearFree) ((k.toNat + 1) * x.mve.cfg.fmt.size - 1)
    let wp := wordMpop ctl h soff num rnd
    let rp := s.opHere c 3 wp fun env => opMpop env h.toNat soff.toNat (min num.toNat 95 + 1) rnd
    (s.Head c 3 wh → rh.errs = [] → s.Issues c 3 wh rh (exec (.hload c ctl v h eoff n soff) s) ∧ rh.lasts (t + 5 + cdiv (n.toNat + 1) per) 1) ∧
    (s.Head c 3 ws → rs.errs = [] → s.Issues c 3 ws rs (exec (.mstream c ctl areg inc v solo k rnd emit) s) ∧
      rs.due = some (last + if emit then 106 else 100) ∧ rs.hold = last + 1 - t ∧ rs.x.c.te.nearFree = last + 1) ∧
    (s.Head c 3 wp → rp.errs = [] → s.Issues c 3 wp rp (exec (.mpop c ctl h soff num rnd) s) ∧
      rp.lasts (t + 3 + cdiv (min num.toNat 95 + 1) per) 1 ∧ rp.acts = [.mpopRel] ∧ 0 < x.mve.rqFill) ∧
    (∀ m d, s.Works c → x.mve.streams = [m] → m.addDue = some d → x.now ≤ d → x.quietTo (s.env c) d = true →
      (x.advance d).stands (s.env c) = false → (∀ p ∈ x.pend, d < p.due) → (∀ i ∈ x.infl, i.dueBy d = true → i.acts = []) →
      let g := x.mve.addGroup (s.env c).key m ((m.ask s.mem d).data.take m.cfg.groupNts)
      ∃ y : Cx, exec (.mstreamGroupAdd c) s = .next (s.take c y) ∧ y.c.mve.acc = g.acc ∧ y.c.mve.lane = g.lane ∧ y.c.mve.ns = g.ns) ∧
    (∀ m, s.Works c → x.mve.streams = [m] → m.next = m.groups → m.emit = true → m.asked = m.requests → m.vecs.Nodup →
      let d := m.emitCycle
      x.now ≤ d → x.quietTo (s.env c) d = true → (x.advance d).stands (s.env c) = false → (∀ p ∈ x.pend, d < p.due) →
      (∀ i ∈ x.infl, i.dueBy d = true → i.acts = []) → x.mve.rqFill + m.vecs.length ≤ 8 →
      ∃ y : Cx, exec (.emission c) s = .next (s.take c y) ∧ y.c.mve.rqFill = x.mve.rqFill + m.vecs.length ∧ y.c.mve.streams = [] ∧
        ∀ j v, m.vecs[j]? = some v →
          y.c.mve.rqRow ((x.mve.rqHead + x.mve.rqFill + j) % 8) = x.mve.vec v ∧ y.c.mve.vec v = List.replicate 96 .zero ∧
            y.c.mve.lane.get .zero v = .zero)

/-! ### The vector engine -/

/-- O29. The elementwise operations of the VE (R68, R162, R164, R177, R184): with G groups, G = ⌈LEN ÷ W⌉ for the W lanes of the format, an operation of latency L completes in
i₀ + L + G − 2 and holds the head for G cycles; L is 4, 6 for VFMA, and the table latency of the profile for VTAB. None fails a check of its own. -/
def Obligations.VectorElementTiming : Prop :=
  ∀ (s : State) (c : Nat) (ctl : Ctl) (d a b k : BitVec 11) (bseg der : Bool) (cond : BitVec 2) (func : BitVec 5),
    let v := (s.core c).ve
    let t := s.issueCycle c 4
    let G := cdiv v.cfg.len (lanesOf v.cfg.fmt)
    let done (w : Word) (L : Nat) (body : Env → Iss → Cx → OpRes) (o : Result) : Prop :=
      s.Issues c 4 w (s.opHere c 4 w body) o ∧ (s.opHere c 4 w body).lasts (t + L + G - 2) G
    (s.Head c 4 (wordVadd ctl d a b bseg) → done (wordVadd ctl d a b bseg) 4 (fun _ => opBin .add d.toNat a.toNat b.toNat bseg)
      (exec (.vadd c ctl d a b bseg) s)) ∧
    (s.Head c 4 (wordVsub ctl d a b bseg) → done (wordVsub ctl d a b bseg) 4 (fun _ => opBin .sub d.toNat a.toNat b.toNat bseg)
      (exec (.vsub c ctl d a b bseg) s)) ∧
    (s.Head c 4 (wordVmul ctl d a b bseg) → done (wordVmul ctl d a b bseg) 4 (fun _ => opBin .mul d.toNat a.toNat b.toNat bseg)
      (exec (.vmul c ctl d a b bseg) s)) ∧
    (s.Head c 4 (wordVmax ctl d a b bseg) → done (wordVmax ctl d a b bseg) 4 (fun _ => opBin .max d.toNat a.toNat b.toNat bseg)
      (exec (.vmax c ctl d a b bseg) s)) ∧
    (s.Head c 4 (wordVmin ctl d a b bseg) → done (wordVmin ctl d a b bseg) 4 (fun _ => opBin .min d.toNat a.toNat b.toNat bseg)
      (exec (.vmin c ctl d a b bseg) s)) ∧
    (s.Head c 4 (wordVfma ctl d a b k bseg) → done (wordVfma ctl d a b k bseg) 6
      (fun _ => opVfma d.toNat a.toNat b.toNat k.toNat bseg) (exec (.vfma c ctl d a b k bseg) s)) ∧
    (s.Head c 4 (wordVcmp ctl d a b cond bseg) → done (wordVcmp ctl d a b cond bseg) 4
      (fun _ => opBin (.cmp cond.toNat) d.toNat a.toNat b.toNat bseg) (exec (.vcmp c ctl d a b cond bseg) s)) ∧
    (s.Head c 4 (wordVsel ctl d a b k bseg) → done (wordVsel ctl d a b k bseg) 4
      (fun _ => opVsel d.toNat a.toNat b.toNat k.toNat bseg) (exec (.vsel c ctl d a b k bseg) s)) ∧
    (s.Head c 4 (wordVmov ctl d a b bseg) → done (wordVmov ctl d a b bseg) 4
      (fun _ => opBin .mov d.toNat a.toNat b.toNat bseg) (exec (.vmov c ctl d a b bseg) s)) ∧
    (s.Head c 4 (wordVtab ctl d a func der) → done (wordVtab ctl d a func der) (tableLatency (s.core c).profile)
      (fun _ => opVtab d.toNat a.toNat func.toNat der) (exec (.vtab c ctl d a func der) s))

/-- O30. The other operations of the VE on slots (R68, R162, R164, R178 to R182, R187): VCVT with the lanes of the wider format, SUPD with 36 lanes, VCMPR and VEXPD with L = 8, VSTAT with L = 1;
VRED completes in i₀ + 7 + G. Each holds the head for its G cycles. -/
def Obligations.VectorSlotTiming : Prop :=
  ∀ (s : State) (c : Nat) (ctl : Ctl) (d a b m : BitVec 11) (tf : BitVec 2) (sc e : BitVec 9) (sen neg zf : Bool) (sb : BitVec 4)
    (rop : BitVec 3),
    let v := (s.core c).ve
    let t := s.issueCycle c 4
    let W := lanesOf v.cfg.fmt
    let done (w : Word) (due G : Nat) (body : Env → Iss → Cx → OpRes) (o : Result) : Prop :=
      s.Issues c 4 w (s.opHere c 4 w body) o ∧ (s.opHere c 4 w body).lasts due G
    let Gc := cdiv v.cfg.len (min W (lanesOf (vFmt tf.toNat)))
    let Gs := cdiv v.cfg.len 36
    let G := cdiv v.cfg.len W
    (s.Head c 4 (wordVcvt ctl d a tf sc sen sb) → done (wordVcvt ctl d a tf sc sen sb) (t + 4 + Gc - 2) Gc
      (fun _ => opVcvt d.toNat a.toNat tf.toNat sc.toNat sen sb.toNat) (exec (.vcvt c ctl d a tf sc sen sb) s)) ∧
    (s.Head c 4 (wordSupd ctl d a b e neg) → done (wordSupd ctl d a b e neg) (t + 6 + Gs - 2) Gs
      (fun _ => opSupd d.toNat a.toNat b.toNat e.toNat neg) (exec (.supd c ctl d a b e neg) s)) ∧
    (s.Head c 4 (wordVred ctl d a rop) → done (wordVred ctl d a rop) (t + 7 + G) G
      (fun _ => opVred d.toNat a.toNat rop.toNat) (exec (.vred c ctl d a rop) s)) ∧
    (s.Head c 4 (wordVcmpr ctl d a m) → done (wordVcmpr ctl d a m) (t + 8 + G - 2) G
      (fun _ => opMove .cmpr d.toNat a.toNat m.toNat) (exec (.vcmpr c ctl d a m) s)) ∧
    (s.Head c 4 (wordVexpd ctl d a m zf) → done (wordVexpd ctl d a m zf) (t + 8 + G - 2) G
      (fun _ => opMove (.expd zf) d.toNat a.toNat m.toNat) (exec (.vexpd c ctl d a m zf) s)) ∧
    (s.Head c 4 (wordVstat ctl a sb) → done (wordVstat ctl a sb) (t + 1 + G - 2) G
      (fun _ => opVstat a.toNat sb.toNat) (exec (.vstat c ctl a sb) s))

/-- O31. VLD, VST, TQRD, RQRD, TBW and FSEL, once their checks pass (R68, R164, R174 to R176, R190): latencies 8, 6, 4, 4, 4 and 6; TQRD and TBW of n rows have 144 × n ÷ W groups, RQRD has ⌈96 ÷ W⌉. A
release asked for comes with the completion (R175), and FSEL holds the head for one cycle. -/
def Obligations.VectorMoveTiming : Prop :=
  ∀ (s : State) (c : Nat) (ctl : Ctl) (slot : BitVec 11) (ptr : BitVec 3) (inc sen rel half tag : Bool) (sb nb : BitVec 4)
    (row nrows : BitVec 8) (ent : BitVec 2) (ent3 : BitVec 3) (tf : BitVec 2) (sc : BitVec 9) (h : BitVec 6),
    let v := (s.core c).ve
    let t := s.issueCycle c 4
    let W := lanesOf v.cfg.fmt
    let G := cdiv v.cfg.len W
    let Gr := (nrows.toNat + 1) * 144 / W
    let wl := wordVld ctl slot ptr inc
    let rl := s.opHere c 4 wl fun _ => opVld slot.toNat ptr.toNat inc
    let ws := wordVst ctl slot ptr inc sen sb
    let rs := s.opHere c 4 ws fun _ => opVst slot.toNat ptr.toNat inc sen sb.toNat
    let wt := wordTqrd ctl slot row nrows ent rel
    let rt := s.opHere c 4 wt fun _ => opTqrd slot.toNat row.toNat (nrows.toNat + 1) ent.toNat rel
    let wr := wordRqrd ctl slot ent3 rel
    let rr := s.opHere c 4 wr fun _ => opRqrd slot.toNat ent3.toNat rel
    let wb := wordTbw ctl slot half row nrows tf sc tag sen sb
    let rb := s.opHere c 4 wb fun _ => opTbw slot.toNat half row.toNat (nrows.toNat + 1) tf.toNat sc.toNat tag sen sb.toNat
    let wf := wordFsel ctl h sb nb
    let rf := s.opHere c 4 wf fun env => opFsel env h.toNat sb.toNat nb.toNat
    (s.Head c 4 wl → rl.errs = [] → s.Issues c 4 wl rl (exec (.vld c ctl slot ptr inc) s) ∧ rl.lasts (t + 8 + G - 2) G) ∧
    (s.Head c 4 ws → rs.errs = [] → s.Issues c 4 ws rs (exec (.vst c ctl slot ptr inc sen sb) s) ∧ rs.lasts (t + 6 + G - 2) G) ∧
    (s.Head c 4 wt → s.Issues c 4 wt rt (exec (.tqrd c ctl slot row nrows ent rel) s) ∧ rt.lasts (t + 4 + Gr - 2) Gr ∧
      rt.acts = if rel then [.tqRel] else []) ∧
    (s.Head c 4 wr → s.Issues c 4 wr rr (exec (.rqrd c ctl slot ent3 rel) s) ∧ rr.lasts (t + 4 + cdiv 96 W - 2) (cdiv 96 W) ∧
      rr.acts = if rel then [.rqRel] else []) ∧
    (s.Head c 4 wb → tf ≠ 3 →
      s.Issues c 4 wb rb (exec (.tbw c ctl slot half row nrows tf sc tag sen sb) s) ∧ rb.lasts (t + 4 + Gr - 2) Gr) ∧
    (s.Head c 4 wf → rf.errs = [] → s.Issues c 4 wf rf (exec (.fsel c ctl h sb nb) s) ∧ rf.lasts (t + 5) 1)

/-- O32. VCFG, VPTR and SCLR complete in their issue cycle. VCFG sets the configuration as R171 says: from VCNT where LCNT is set, with EMPTY when that is zero. VPTR sets one pointer register, which reads back at 0x0D40 + 8 × n
of the control block (R172). SCLR clears its buffer and sets its BASE at the end of the cycle (R188). -/
def Obligations.VectorConfiguration : Prop :=
  ∀ (s : State) (c : Nat) (ctl : Ctl) (fmt : BitVec 2) (rnd msk : Bool) (mslot : BitVec 11) (len : BitVec 16) (lcnt : Bool) (seg : BitVec 12)
    (p : BitVec 3) (h : BitVec 6) (orient : Bool) (off : BitVec 23) (sb : BitVec 4) (base : BitVec 9),
    let v := (s.core c).ve
    let n := if lcnt then v.vcnt else len.toNat
    (s.Head c 4 (wordVcfg ctl fmt rnd msk mslot len lcnt seg) → (lcnt = true → v.vcntP = false) → ∃ k : Core,
      s.worked c k (exec (.vcfg c ctl fmt rnd msk mslot len lcnt seg) s) ∧
      k.ve.cfg = ⟨vFmt fmt.toNat, rnd, msk, mslot.toNat, if n = 0 then 1 else n, seg.toNat + 1, n == 0⟩ ∧
      k = { s.issueCore c 4 (wordVcfg ctl fmt rnd msk mslot len lcnt seg) with
        engs := k.engs, infl := k.infl, busyTo := k.busyTo, ve := { v with cfg := k.ve.cfg } }) ∧
    (s.Head c 4 (wordVptr ctl p h orient off) → ∃ k : Core, s.worked c k (exec (.vptr c ctl p h orient off) s) ∧
      k.ctlRead (0x0D40 + 8 * p.toNat) = BitVec.ofNat 72 (h.toNat * 2 ^ 24 + b2n orient * 2 ^ 23 + off.toNat) ∧
      (∀ q : BitVec 3, q ≠ p → k.ctlRead (0x0D40 + 8 * q.toNat) = (s.core c).ctlRead (0x0D40 + 8 * q.toNat)) ∧
      k = { s.issueCore c 4 (wordVptr ctl p h orient off) with
        engs := k.engs, infl := k.infl, busyTo := k.busyTo, ve := { v with ptrs := k.ve.ptrs } }) ∧
    (s.Head c 4 (wordSclr ctl sb base) → ∃ k : Core, s.worked c k (exec (.sclr c ctl sb base) s) ∧
      let w : Pend := ⟨s.issueCycle c 4, s.issueAs c 4, .sclr sb.toNat base.toInt⟩
      k.pend = (s.core c).pend ++ [w] ∧
      (∀ (x : Cx) (env : Env), ((x.apply env (s.issueCycle c 4) w).c.ve.stats.get .reset sb.toNat) = { Stats.reset with base := base.toInt }))

/-! ### The message engine -/

/-- O33. The operations of the ME, once they are not held (R302 to R317). MSEND of a message whose end has the credit and the room spends len + 1 words of it, moves its position and its sequence number on, and waits for its source
read; MCOMB spends the credit of its end; MREL hands the head message's words back and moves on; MRECV completes in i₀ + 1, and MCTAKE, once its checks pass, lands its result in i₀ + 4 on. -/
def Obligations.MessageOperations : Prop :=
  ∀ (s : State) (c : Nat) (ctl : Ctl) (endn areg : BitVec 5) (inc : Bool) (len : BitVec 10) (tag : BitVec 8) (mask : BitVec 32)
    (rot poll : Bool) (q : BitVec 3) (r : MsgRec),
    let k := s.core c
    let t := s.issueCycle c 5
    let e := k.me.endOf endn.toNat
    let m := len.toNat + 1
    let ws := wordMsend ctl endn areg inc len tag
    let wr := wordMrecv ctl mask rot poll
    let we := wordMrel ctl endn
    let wc := wordMcomb ctl endn areg inc len
    let wt := wordMctake ctl q areg inc
    let rt := s.opHere c 5 wt fun env => opMctake env q.toNat areg.toNat inc
    k.me.bkind = 0 →
    (s.Head c 5 ws → k.sendErrs (s.env c) 1 endn.toNat areg.toNat len.toNat = [] → e.pos + m ≤ e.cap → m ≤ e.credit →
      ∃ y : Cx, exec (.msend c ctl endn areg inc len tag) s = .next (s.take c y) ∧ y.effs = [] ∧
        (y.c.me.endOf endn.toNat).credit = e.credit - m ∧ (y.c.me.endOf endn.toNat).pos = (e.pos + m) % e.cap ∧
        (y.c.me.endOf endn.toNat).seq = (e.seq + 1) % 2048 ∧
        ∃ d, y.c.te.sends = k.te.sends ++ [d] ∧ d.kind = .msg endn.toNat tag.toNat len.toNat e.seq e.pos ∧ d.size = 8 * len.toNat) ∧
    (s.Head c 5 wc → k.sendErrs (s.env c) 3 endn.toNat areg.toNat len.toNat = [] → e.credit ≠ 0 →
      ∃ y : Cx, exec (.mcomb c ctl endn areg inc len) s = .next (s.take c y) ∧ y.effs = [] ∧
        (y.c.me.endOf endn.toNat).credit = 0 ∧
        ∃ d, y.c.te.sends = k.te.sends ++ [d] ∧ d.kind = .comb endn.toNat ∧ d.size = 8 * len.toNat) ∧
    (s.Head c 5 we → e.role = 2 → e.headMsg = some r →
      ∃ y : Cx, exec (.mrel c ctl endn) s = .next (s.take c y) ∧
        (y.c.me.endOf endn.toNat).recs = e.dropHead ∧ (y.c.me.endOf endn.toNat).seq = (r.seq + 1) % 2048 ∧
        y.effs = [(t, .credit e.pchip e.pcore e.pend r.words (if e.cls = 3 then 0 else t + 1 + e.dly))]) ∧
    (s.Head c 5 wr → (∀ n ∈ setBitsOf 32 mask.toNat, (k.me.endOf n).role = 2) → (poll = true ∨ (k.me.select mask.toNat rot).isSome) →
      ∃ y : Cx, exec (.mrecv c ctl mask rot poll) s = .next (s.take c y) ∧ y.effs = [] ∧
        (∃ x : Rx, (⟨t + 1, s.issueAs c 5, .rx x⟩ : Pend) ∈ y.c.pend ∧ (k.me.select mask.toNat rot = none → x = .reset) ∧
          (∀ n, k.me.select mask.toNat rot = some n → x.valid = true ∧ x.endn = n)) ∧
        (∃ i ∈ y.c.infl, i.tid = k.nextTid ∧ i.due = some (t + 1))) ∧
    (s.Head c 5 wt → rt.errs = [] →
      s.Issues c 5 wt rt (exec (.mctake c ctl q areg inc) s) ∧ (k.me.comb.get .reset q.toNat).complete = true ∧
        rt.lasts (t + 3 + cdiv (8 * ((k.me.comb.get .reset q.toNat).size + 1)) 144) 1 ∧ rt.acts = [.comb q.toNat])

/-! ### Transfers, messages and what lands -/

/-- O34. What the TE sends and what its queues take (R271, R278, R280, R281, R350): a waiting send starts in the first cycle T that it, the send path, a start position of
its flow and the core are ready, its source is read from then on, and the path is free again in T + ⌈size ÷ 144⌉, after a pad record in T + 1; a send without room in the
outbound buffer stalls the program; room lets a send that no regulator holds leave; a released request of a decoupling queue counts as sent; and data of a LOADQ from far memory of this chip lands in its
queue, which is Ready after the last. -/
def Obligations.TransferEvents : Prop :=
  ∀ (s : State) (c : Nat), s.Works c →
    let k := s.core c
    let env := s.env c
    (∀ d rest S, k.te.sends = d :: rest → k.sendDue env = some S →
      let T := max S k.now
      k.quietTo env T = true → (k.advance T).hasRoom d = true →
      max d.ready k.te.sendFree ≤ S ∧
      ∃ y : Cx, exec (.sendStart c) s = .next (s.take c y) ∧ y.effs = [] ∧ y.c.te.sends = rest ∧ y.c.now = T ∧
        y.c.te.sendFree = max k.te.sendFree (T + max d.kind.padCycle (cdiv d.size 144)) ∧
        (∃ e ∈ y.c.te.outb ++ y.c.te.net ++ y.c.te.lightq, e.tid = d.tid ∧ e.kind = d.kind ∧ e.start = T ∧ e.data = d.kind.header) ∧
        (0 < d.size → ⟨T, ⟨T, d.tid, d.eng, d.ctx, d.pc⟩, .source 0⟩ ∈ y.c.pend)) ∧
    (∀ d rest S n, k.te.sends = d :: rest → k.sendDue env = some S → k.prog = some n →
      let T := max S k.now
      k.quietTo env T = true → (k.advance T).hasRoom d = false →
      ∃ t p, exec (.outboundStall c) s = .next t ∧ t.prog n = some p ∧ .outbound c ∈ p.stalls) ∧
    (∀ d nt, k.te.outb = [d] → d.cls = none → d.gone < d.total → d.data.length = d.total → d.total - d.gone ≤ nt → d.dests ≠ [] ∨ (∀ m o, d.kind ≠ .mcast m o) →
      s.goesOff k d = false →
      ∃ t, exec (.outboundRoom c nt) s = .next t ∧ (t.core c).te.outb = [] ∧ (t.core c).te.fill = k.te.fill - (d.total - d.gone) ∧
        (t.core c).te.net = k.te.net ++ [{ d with gone := d.total }]) ∧
    (∀ cls q tid n, cls < 4 → k.te.tokenWait cls = some 0 → k.te.nextReq cls = some (tid, n) →
      (k.te.outb.any fun d => d.tid == tid) = false → (k.te.dq.get .reset q).tid = tid → (k.te.dq.get .reset q).st = 1 →
      ∃ t, exec (.regulatorRelease c cls) s = .next t ∧ ((t.core c).te.dq.get .reset q).sent = (k.te.dq.get .reset q).sent + 1) ∧
    (∀ q req, q < 16 →
      let d := k.te.dq.get .reset q
      let l := localOf (d.src + 64 * req)
      let n := min 64 (d.size - 64 * req)
      d.st = 1 → req < d.sent → req ∉ d.landed → req ∉ d.refused → s.isHere (chipOf (d.src + 64 * req)) = true → farBase ≤ l → l + n ≤ farEnd → l < farEnd →
      s.mem.touchesMirror l n = false →
      ∃ t, exec (.queueDataLand c q req .none []) s = .next t ∧
        ((t.core c).te.dq.get .reset q).landed = d.landed ++ [req] ∧
        ((t.core c).te.dq.get .reset q).data = d.data.writeList ⟨0, false⟩ (64 * req) (s.mem.read l n) ∧
        ((t.core c).te.dq.get .reset q).st = if cdiv d.size 64 ≤ d.landed.length + 1 then 2 else 1)

/-- O35. What lands from outside a core (R229, R235, R241 to R246, R282, R283, R285, R286): a STORE to far memory of this chip writes it and completes, as does one that another chip has
taken; a multicast copy is written at its destination, counts in the counter named for it and is no longer to come; a LIGHT payload leaves in its core's slot of the frame, and lands in
its mailbox, or is dropped with LREFUSED where the receive word is not valid; each 144 nonets of a background access take the core's background slot, which is then free four cycles later, and those of a write read back;
a grant adds to CREDIT, which saturates, unless it was sent in an attempt that has failed. -/
def Obligations.Landings : Prop :=
  ∀ (s : State) (c : Nat), c < 144 → s.live = true →
    let k := s.core c
    let takes (u : State) (n off len : Nat) (since : Option Nat) : Prop :=
      off + len ≤ scratchSize ∧ (u.core n).scr.bgTakes since (wordsOf off len) = true ∧
        (u.stepRuns n && (u.core n).rangeProtected (u.env n).step off len) = false
    let holds (u t : State) (n off : Nat) (data : List PNt) : Prop :=
      ∀ a, ((t.core n).scr.nt a).v =
        (if off ≤ a ∧ a < off + data.length then (data.getD (a - off) ⟨0, false⟩).v else ((u.core n).scr.nt a).v)
    (∀ tid d dst, (k.te.net.find? fun x => x.tid == tid) = some d → d.kind = .store dst →
      let done (t : State) : Prop := (∀ x ∈ (t.core c).te.net, x.tid ≠ tid) ∧ ∀ i ∈ (t.core c).infl, i.tid = tid → i.due = some k.now
      (∀ refused, s.isHere (chipOf dst) = true → region s.fuse.absent (localOf dst) = .far → localOf dst + d.data.length ≤ farEnd →
        s.sealed (localOf dst) d.data.length = false → s.mem.touchesMirror (localOf dst) d.data.length = false →
        ∃ t, exec (.storeLanded c tid .none refused) s = .next t ∧ t.mem = s.mem.write (localOf dst) d.data ∧ done t) ∧
      (∀ fault, s.isHere (chipOf dst) = false → s.reachesStill (chipOf dst) = true →
        ∃ t, exec (.storeLanded c tid fault none) s = .next t ∧ t.mem = s.mem ∧ done t)) ∧
    (∀ tid d mset off dest n, dest < 144 → (k.te.net.find? fun x => x.tid == tid) = some d → d.kind = .mcast mset off → dest ∈ d.dests →
      ((k.te.msets.get [] mset).find? fun m => m.1 == dest) = some (dest, n) →
      let u := s.bgPieces dest off d.data
      takes (s.bgWait dest) dest off d.data.length (some (s.cycleOf c d.start)) →
      ∃ t, exec (.mcastCopyLand c tid dest) s = .next t ∧ (t.core dest).scr = (u.core dest).scr ∧ (t.core dest).coup = ((u.core dest).bump n).coup ∧
        ∀ x ∈ (t.core c).te.net, x.tid = tid → dest ∉ x.dests) ∧
    (∀ d rest dst, s.Works c → (∀ n p, k.prog = some n → s.prog n = some p → p.starting = false) → k.te.lightq = d :: rest → d.kind = .light dst →
      d.data.length = d.size →
      let from_ := max k.now (d.start + 1)
      let f := (s.coreFrame c + (from_ - k.now)) % 144
      let T := from_ + (c + 144 - f) % 144
      k.quietTo (s.env c) T = true →
      (f + (T - from_)) % 144 = c ∧ ∃ y : Cx, exec (.lightSlotSend c) s = .next (s.take c y) ∧ y.c.te.lightq = rest ∧ y.c.now = T ∧
        y.effs = [(T, .light dst T d.data)] ∧ (∀ i ∈ y.c.infl, i.tid = d.tid → i.due = some T) ∧
        (s.take c y).light = s.light ++ [⟨c, dst, s.cycleOf c T, d.data⟩]) ∧
    (∀ src f, src < 144 → (s.light.find? fun x => x.src == src && x.dst == c) = some f →
      let s1 := s.bring c (f.at_ + 4 + (c + 144 - src) % 144)
      let k1 := s1.core c
      let off := k1.te.lightBase + 64 * src
      let s2 : State := { s1 with light := s1.light.erase f }
      let u := s2.bgPieces c off f.data
      (k1.te.lightValid = false → ∃ t, exec (.lightLanding c src) s = .next t ∧ t.light = s1.light.erase f ∧ (t.core c).te.lightRefused = true) ∧
        (k1.te.lightValid = true → takes (s2.bgWait c) c off f.data.length (some f.at_) →
          ∃ t, exec (.lightLanding c src) s = .next t ∧ (t.core c).scr = (u.core c).scr ∧
            (t.core c).te.lightLanded = ((u.core c).te.lightLanded + 1) % 2 ^ 36 ∧
            (t.core c).coup = ((u.core c).bump (u.core c).te.lightCounter).coup)) ∧
    (∀ off j data, let u := s.bgSlot c
      holds u (State.bgPiece c off s (data, j)) c (off + 144 * j) data ∧
        ((State.bgPiece c off s (data, j)).core c).bgFree = (u.core c).bgFree) ∧
    (∀ off data, 0 < data.length → data.length ≤ 144 → off + data.length ≤ scratchSize →
      let u := s.bgSlot c
      (u.core c).bgFree = s.bgNext c + 4 ∧ max s.cyc k.bgFree ≤ s.bgNext c ∧ (k.fixes = [] → s.bgNext c = max s.cyc k.bgFree) ∧
        (takes (s.bgWait c) c off data.length none →
          (∃ t, exec (.backgroundAccess c true off data.length data) s = .next t ∧ holds u t c off data ∧ (t.core c).bgFree = (u.core c).bgFree) ∧
          ∃ t, exec (.backgroundAccess c false off data.length data) s = .next t ∧
            (∀ q ∈ wordsOf off data.length, (t.core c).scr.upset.get 0 q = 0) ∧
            ((∀ q ∈ wordsOf off data.length, (u.core c).scr.upset.get 0 q = 0) → (t.core c).bgFree = (u.core c).bgFree))) ∧
    (∀ idx (w : Word), idx < 16 →
      exec (.creditGrant c idx ⟨w, true⟩) s = .next s ∧
        (bits w 71 26 = 0 → (k.te.credits.get .reset idx).valid = true →
          ∃ t, exec (.creditGrant c idx ⟨w, false⟩) s = .next t ∧
            ((t.core c).te.credits.get .reset idx).credit = min (2 ^ 26 - 1) ((k.te.credits.get .reset idx).credit + bits w 25 0) ∧
            ∀ j, j ≠ idx → (t.core c).te.credits.get .reset j = k.te.credits.get .reset j))

/-- O36. What comes to a message engine (R289, R303 to R305, R314 to R319): a record lands in its ring, through the background slot in class 3 and else as static writes after which it is receivable,
and a contribution in the staging store; a pad record is consumed and its words go back; credit comes back, up to the ring; the combiner
takes a contribution, and with the last of a round its queue becomes Complete; a beacon is heard; and in Free mode the next ready context takes over 2 cycles after a hold of switch_after cycles. -/
def Obligations.MessageEvents : Prop :=
  ∀ (s : State) (c : Nat), s.Works c →
    let k := s.core c
    let env := s.env c
    let headOf (l : List PNt) : Word := BitVec.ofNat 72 (ntVal (l.take 8))
    let fits (u : State) (n pos : Nat) (l : List PNt) (len : Nat) : Prop :=
      (u.core c).writeRefused (u.env c).step (((u.core c).handle ((u.core c).me.endOf n).handle).base + 8 * pos)
        (if bits (headOf l) 71 70 = 1 then 8 else len) = none
    (∀ n ext, n < 32 → (k.me.endOf n).role = 2 → (k.me.endOf n).cls = 3 → s.isHere (k.me.endOf n).pchip = false → ext.length % 8 = 0 →
      8 ≤ ext.length →
      let pos := (k.me.endOf n).nextPos
      let u := s.landSlots c n pos ext
      u.live = true → fits u n pos ext ext.length →
      ∃ y : Cx, exec (.messageLand c n ext) s = .next (u.take c y) ∧
        (y.c.me.endOf n).recs = ((u.core c).me.endOf n).recs ++ [recOf pos (headOf ext) (anyPoison (ext.take 8))]) ∧
    (∀ n d d', n < 32 → (k.me.endOf n).role = 2 → (k.me.endOf n).cls ≠ 3 → s.isHere (k.me.endOf n).pchip = true →
      s.inChannel (k.me.endOf n) = some d →
      let e := k.me.endOf n
      let due := d.start + 11 + e.dly
      let u := (s.work e.pcore fun env x => x.runTo env due).work c fun env x => x.runTo env due
      u.inChannel e = some d' → u.coreRuns c = true →
      let v := u.beginLanding e.pcore d'
      let m := recOf d'.kind.pos (headOf d'.data) (anyPoison (d'.data.take 8))
      let off := ((v.core c).handle ((v.core c).me.endOf n).handle).base + 8 * d'.kind.pos
      let t := max due (v.core c).now
      let G := cdiv (if m.pad then 8 else d'.total) 144
      v.live = true → fits v n d'.kind.pos d'.data d'.total →
      ∃ y : Cx, exec (.messageLand c n []) s = .next ((v.take c y).supply c) ∧
        ∃ i : Iss, ⟨t + G - 1, i, .record n m⟩ ∈ y.c.pend ∧
          ∀ j, j < G → ⟨t + j, i, .await e.pcore d'.tid j (off + 144 * j)⟩ ∈ y.c.pend) ∧
    (∀ n r, n < 32 → k.quietTo env (k.now + 1) = true → (k.me.endOf n).headRec = some r → r.pad = true →
      ∃ y : Cx, exec (.padConsumed c n) s = .next (s.take c y) ∧ (y.c.me.endOf n).recs = (k.me.endOf n).dropHead ∧ (y.c.me.endOf n).pos = 0 ∧
        y.effs = [(k.now + 1, .credit (k.me.endOf n).pchip (k.me.endOf n).pcore (k.me.endOf n).pend r.words
          ((k.me.endOf n).returnDue (k.now + 1)))]) ∧
    (∀ n a, n < 32 → s.isHere (k.me.endOf n).pchip = false →
      ((k.me.endOf n).role = 1 → ∃ t, exec (.creditReturn c n (some a)) s = .next t ∧
        ((t.core c).me.endOf n).credit = min (k.me.endOf n).cap ((k.me.endOf n).credit + a)) ∧
      ((k.me.endOf n).role = 3 → ∃ t, exec (.creditReturn c n (some a)) s = .next t ∧ ((t.core c).me.endOf n).credit = 1)) ∧
    (∀ n a due l, n < 32 → (k.me.endOf n).ret = (a, due) :: l → k.quietTo env (due + 1) = true →
      ∃ y : Cx, exec (.creditReturn c n none) s = .next (s.take c y) ∧ (y.c.me.endOf n).ret = l ∧ due < y.c.now ∧
        (y.c.me.endOf n).credit = if (k.me.endOf n).role = 3 then 1 else min (k.me.endOf n).cap ((k.me.endOf n).credit + a)) ∧
    (∀ q src ext, q < 8 → src < 64 → s.inComb c q src = none → ext ≠ [] → (k.me.comb.get .reset q).valid = true →
      ext.length = 8 * ((k.me.comb.get .reset q).size + 1) →
      ∃ y : Cx, exec (.contributionArrival c q src ext) s = .next (s.take c y) ∧ y.effs = [] ∧
        y.c.me.staging = k.me.staging ++ [⟨q, src, k.now, ext⟩] ∧
        (y.c.me.comb.get .reset q).arrived = (k.me.comb.get .reset q).arrived + 1) ∧
    (∀ x, k.me.nextContrib env.free = some x →
      let q := k.me.comb.get .reset x.q
      let d := max x.at_ k.me.combFree + cdiv (8 * (q.size + 1)) 144 - 1
      k.now ≤ d → k.quietTo env d = true → (k.advance d).stands env = false → (∀ p ∈ k.pend, d < p.due) →
      (∀ i ∈ k.infl, i.dueBy d = true → i.acts = []) →
      ∃ y : Cx, exec (.combine c) s = .next (s.take c y) ∧ y.c.me.combFree = d + 1 ∧
        (∀ j ∈ y.c.me.staging, ¬(j.q = x.q ∧ j.src = x.src)) ∧ y.c.me.comb.get .reset x.q = q.take x.src x.data ∧
        (popcount 64 (q.take x.src x.data).added = q.count + 1 → ∃ i : Iss, ⟨d + 1, i, .combDone x.q⟩ ∈ y.c.pend)) ∧
    (let u := s.bring c (s.cyc + (c + 144 - s.frame) % 144)
     k.me.bkind ≠ 0 → (u.core c).me.bkind ≠ 0 → ∃ t, exec (.beacon c) s = .next t ∧
      ∃ b ∈ t.beacons, b.node = u.meNode 0xFFFF c ∧ b.waits = (u.core c).me.waits.map fun w => u.meNode w.1 w.2) ∧
    (∀ eng h n, eng < 6 → env.free = true → 1 < (k.eng eng).nctx → (k.eng eng).here.held = some h →
      k.quietTo env (h + env.switchAfter) = true → k.stillHeld eng (k.eng eng).cur = true →
      (((List.range ((k.eng eng).nctx - 1)).map fun j => ((k.eng eng).cur + 1 + j) % (k.eng eng).nctx).find? fun j =>
        k.ctxReady env eng j) = some n →
      ∃ k' : Core, s.worked c k' (exec (.contextSwitch c eng) s) ∧ (k'.eng eng).cur = n ∧ (k'.eng eng).st = .running ∧
        (k'.eng eng).headFree = max k.now (h + env.switchAfter) + 2)

/-! ### Host queues, programs and sessions -/

/-- O37. The completion of an entry (R387, R391, R394): the entry is no longer pending; its completion is written at once where the ring has room
and none waits before it, as 32 octets at place cprod mod cq_entries, and the index moves on by one; else it waits in the backlog, which takes 16,384
completions over all queues; past that it is dropped and OVERRUN is set in the next. What the host is sent goes to the address that the ring's place has, or waits
while the port takes no frame of the queue (R380, R391). -/
def Obligations.CompletionPosted : Prop :=
  ∀ (s : State) (e : Entry) (status v n : Nat) (l r : List (Nat × Nat)),
    (s.queue e.q).active = l ++ (n, e.tag) :: r → (∀ x ∈ l, x.2 ≠ e.tag) →
    let h := s.queue e.q
    let u := s.setQueue e.q { h with active := l ++ r }
    let t := s.answer e status (some v)
    let c : Compl := ⟨e.tag, status, 0, v, 0, 0, 0⟩
    let m := max (s.valAt 0x1180 0x0C e.q) 1
    let o : Out := .compl e.q (s.valAt 0x1180 0xA e.q + 32 * (h.cprod % m)) (s.valAt 0x1180 0xB e.q)
      (c.octets e.q (decide (h.cprod / m % 2 = 0)) h.overrun)
    (t.queue e.q).active = l ++ r ∧
      (h.waiting = [] → s.ringRoom e.q = true →
        (t.queue e.q).cprod = (h.cprod + 1) % 2 ^ 32 ∧ (t.queue e.q).waiting = [] ∧
          (s.sends e.q = true → t.out = s.out ++ [o] ∧ t.held = s.held) ∧
          (s.sends e.q = false → t.out = s.out ∧ t.held = s.held ++ [(e.q, 32, o)])) ∧
      (¬(h.waiting = [] ∧ s.ringRoom e.q = true) → u.backlog < 16384 → (t.queue e.q).waiting = h.waiting ++ [c] ∧ t.out = s.out) ∧
      (¬(h.waiting = [] ∧ s.ringRoom e.q = true) → 16384 ≤ u.backlog →
        (t.queue e.q).waiting = h.waiting ∧ (t.queue e.q).overrun = true ∧ t.out = s.out) ∧
      ∀ ph ov, (c.octets e.q ph ov).length = 32

/-- O38. An entry with an undefined operation or a nonzero reserved bit completes with BADENTRY, status 10 (R387, R392). -/
def Obligations.BadEntries : Prop :=
  ∀ (s : State) (q : Nat) (e : Entry), q < 4096 → s.nextEntry q = some e →
    let bad := Host.Outcome.next (((s.latentRead (s.entryAddr q e.num) 64).1.beginEntry e).answer e 10 none)
    (e.defined = false → exec (.nopEntry q) s = bad) ∧
    (e.reserved = true →
      (e.op = 0 → exec (.nopEntry q) s = bad) ∧ (e.op = 1 → exec (.load q) s = bad) ∧ (e.op = 2 → exec (.start q) s = bad) ∧
      (e.op = 3 → exec (.stop q) s = bad) ∧ (e.op = 4 → s.chunkWaits e = false → exec (.stream q) s = bad) ∧ (e.op = 5 → exec (.signal q) s = bad) ∧
      (e.op = 6 → e.cmd = 1 → exec (.create q) s = bad) ∧ (e.op = 6 → e.cmd = 2 → exec (.set q) s = bad) ∧
      (e.op = 6 → e.cmd = 3 → exec (.restore q) s = bad) ∧ (e.op = 6 → e.cmd = 4 → exec (.evict q) s = bad) ∧
      (e.op = 6 → e.cmd = 5 → exec (.delete q) s = bad) ∧ (e.op = 6 → e.cmd = 6 → exec (.aload q) s = bad) ∧
      (e.op = 6 → e.cmd = 7 → exec (.adfree q) s = bad) ∧
      (e.op = 7 → bit (e.word 1) 71 = false → exec (.window q) s = bad) ∧ (e.op = 7 → bit (e.word 1) 71 = true → exec (.destroy q) s = bad))

/-- O39. The entries that concern programs (R93, R387, R407, R410, R436). A NOP completes OK. LOAD, its
image read and checked block by block, refuses it while memory is being zeroed, completes with BUSY
over the seal of a loaded program (the model's choice), with the loader's verdict where it refuses, else installs the program under the lowest free number,
which is its VALUE, on the cores of its sections. START takes over the settings, the seed and its completion; STOP makes every engine drain; STREAM delivers the chunk's
instructions; SIGNAL increments the counter; each is REFUSED for a number that no program has. -/
def Obligations.ProgramEntries : Prop :=
  ∀ (s : State) (q : Nat) (e : Entry),
    let b := s.beginEntry e
    let n := bits (e.word 1) 15 0
    (s.Begins q e 0 → exec (.nopEntry q) s = .next (b.answer e 0 none)) ∧
    (s.Begins q e 1 →
      let x := (b.latentRead (bits (e.word 1) 43 0) (bits (e.word 2) 35 0)).1
      let m := x.imgAt (bits (e.word 1) 43 0) (bits (e.word 2) 35 0)
      ∃ t : State, exec (.load q) s = .next t ∧
        (x.zeroed = false → t = x.answer e 9 none) ∧
        (x.zeroed = true → x.overSeal m = true → t = x.answer e 1 none) ∧
        (∀ v, x.zeroed = true → x.overSeal m = false → x.loadVerdict m = some v →
          ∃ u : State, t = u.answer e 9 (some v) ∧ u.progs = x.progs ∧ u.cores = x.cores ∧ u.mem = x.mem) ∧
        (x.zeroed = true → x.overSeal m = false → x.loadVerdict m = none →
          ∃ (u : State) (p : Prog), t = u.answer e 0 (some x.freeNum) ∧ u.prog x.freeNum = some p ∧ p.starting = false ∧ p.running = false ∧
            p.image = m.base ∧ p.size = m.size ∧ p.cores = m.cores ∧ (∀ c ∈ m.cores, (u.core c).prog = some x.freeNum))) ∧
    (s.Begins q e 2 → s.prog n = none → exec (.start q) s = .next (b.answer e 9 none)) ∧
    (∀ p, s.Begins q e 2 → s.prog n = some p → p.starting = false → p.running = false → p.stopping = false →
      (∀ x ∈ p.streams, x.ctx ≠ 0 → s.val 0x6000 1 ≠ 0) →
      ∃ (t : State) (p' : Prog), exec (.start q) s = .next t ∧ t.prog n = some p' ∧ p'.starting = true ∧ p'.start = some ⟨e.q, e.tag⟩ ∧
        p'.seed = s.val 0x6010 1 % 2 ^ 36 ∧ p'.step = p.firstStep ∧ p'.lat = s.latch ∧ p'.stalls = [.startup]) ∧
    (s.Begins q e 3 → s.prog n = none → exec (.stop q) s = .next (b.answer e 9 none)) ∧
    (∀ p, s.Begins q e 3 → s.prog n = some p → p.stopping = false →
      ∃ t : State, exec (.stop q) s = .next t ∧
        (t.prog n = none ∨
          ∃ p', t.prog n = some p' ∧ p'.stopping = true ∧ p'.stop = some ⟨e.q, e.tag⟩ ∧
            ∀ c ∈ p.cores, ∀ g, ((t.core c).eng g).st = .off ∨ ((t.core c).eng g).st = .halted ∨ ((t.core c).eng g).st = .draining)) ∧
    (s.Begins q e 4 → s.chunkOk e = none → exec (.stream q) s = .next (b.answer e 9 none)) ∧
    (s.Begins q e 4 → s.chunkWaits e = true → exec (.stream q) s = .next s) ∧
    (∀ m x, s.Begins q e 4 → s.chunkOk e = some (m, x) → s.chunkWaits e = false →
      ∃ u : State, exec (.stream q) s = .next (u.answer e 0 none) ∧
        ((u.core x.core).eng x.eng).ctx x.ctx =
          (((s.core x.core).eng x.eng).ctx x.ctx).deliver
            (s.streamWords x (((s.core x.core).eng x.eng).ctx x.ctx).supplied (bits (e.word 3) 9 0))) ∧
    (∀ p, s.Begins q e 5 → s.prog n = some p → bits (e.word 1) 23 16 ∈ p.cores →
      ∃ u : State, exec (.signal q) s = .next (u.answer e 0 none) ∧
        u.core (bits (e.word 1) 23 16) = (s.core (bits (e.word 1) 23 16)).bump (bits (e.word 1) 27 24)) ∧
    (∀ p, s.Begins q e 5 → s.prog n = some p → bits (e.word 1) 23 16 ∉ p.cores → exec (.signal q) s = .next (b.answer e 9 none))

/-- O40. A session's descriptor reads back as it was written (R322 to R326): into its table block, and its working copy where it has one. A mirror
copy of the block, where there is one, lies outside the table (R259, R322). -/
def Obligations.DescriptorReadsBack : Prop :=
  ∀ (s : State) (i : Nat) (d : Sess), i < 1048576 → Sess.ofWords d.words = d → 
    (∀ r, s.mem.mirrorOf (sessAddr i) = some r →
      r.mirror + (sessAddr i - r.primary) + 64 ≤ tableBase ∨ sessAddr 1048576 ≤ r.mirror + (sessAddr i - r.primary)) →
    (s.setSess i d).sess i = d ∧ (∀ j, j < 1048576 → j ≠ i → (s.setSess i d).sess j = s.sess j) ∧
      (s.setSess i d).mem = s.mem.writeWords (sessAddr i) d.words

/-- O41. Session commands of a queue (R328 to R331, R333, R335). Where no serving program is in a step each is
applied at once and completes: CREATE takes the image with VALID set, the other flags cleared, the generation one higher, DEADLINE and POSITION zero; SET changes the groups of fields that FIELDS selects; RESTORE of a kept
session gives it a place, and one from the host asks for its copy, 16 of a QP at a time (R382); EVICT with KEEP and DELETE free it; ALOAD writes an adapter entry and ADFREE clears one that no session uses. A command of another generation is STALE, and a failed session takes DELETE alone.
While a step runs a command waits, and an EVICT or DELETE of a session of that step begins to drain it. -/
def Obligations.SessionCommands : Prop :=
  ∀ (s : State) (q : Nat) (e : Entry),
    let b := s.beginEntry e
    let c := e.scmd
    let d := b.sess c.number
    let img := Sess.ofWords (b.mem.readWords c.image 8)
    let f (k : Nat) : Bool := nbit c.fields k
    let idle (i : Nat) : Prop := (s.moving.entries.any fun x => x.1 == i) = false ∧ (s.draining.entries.any fun x => x.1 == i) = false
    s.Begins q e 6 → s.mem.poisoned (sessAddr c.number) = false →
      (s.servingStep = true →
        (e.cmd = 2 → exec (.set q) s = .next { b with cmds := b.cmds ++ [c] }) ∧
          ((e.cmd = 4 ∨ e.cmd = 5) → d.valid = true → c.gen = d.gen → d.failed = false → d.drain = false → d.state = 2 → b.inStep c.number = true →
            idle c.number →
            ∃ t : State, exec (if e.cmd = 4 then .evict q else .delete q) s = .next t ∧ t.draining = b.draining.put c.number c ∧
              t.cmds = b.cmds ++ [c] ∧ t.copyOf c.number = (b.copyOf c.number).map fun r => { r with d := { d with drain := true } })) ∧
      (s.servingStep = false → b.isDraining c = false →
        (e.cmd = 1 → d.failed = true → exec (.create q) s = .next (b.answerCmd c 8)) ∧
        (e.cmd = 1 → d.failed = false → d.valid = true → exec (.create q) s = .next (b.answerCmd c 1)) ∧
        (e.cmd = 1 → d.failed = false → d.valid = false →
          let d' : Sess := { img with
            valid := true, state := 0, drain := false, failed := false, missed := false, kept := false
            gen := (d.gen + 1) % 65536, deadline := 0, position := 0 }
          (b.noAdapter d' = true → exec (.create q) s = .next (b.answerCmd c 3)) ∧
            (b.noAdapter d' = false → exec (.create q) s = .next ((b.setSess c.number d').answerCmd c 0))) ∧
        (2 ≤ e.cmd → e.cmd ≤ 5 → d.valid = true → c.gen ≠ d.gen ∨ (d.failed = true ∧ e.cmd ≠ 5) →
          let st := if c.gen ≠ d.gen then 2 else 8
          (e.cmd = 2 → exec (.set q) s = .next (b.answerCmd c st)) ∧ (e.cmd = 3 → exec (.restore q) s = .next (b.answerCmd c st)) ∧
            (e.cmd = 4 → exec (.evict q) s = .next (b.answerCmd c st)) ∧ (e.cmd = 5 → exec (.delete q) s = .next (b.answerCmd c st))) ∧
        (d.valid = true → c.gen = d.gen → d.failed = false → d.drain = false →
          (e.cmd = 2 →
            let d' : Sess := { d with
              prio := if f 0 then img.prio else d.prio
              deadline := if f 1 then img.deadline else d.deadline
              interval := if f 2 then img.interval else d.interval
              adapter := if f 3 then img.adapter else d.adapter
              adptEn := if f 3 then img.adptEn else d.adptEn
              qp := if f 4 then img.qp else d.qp
              user := if f 5 then img.user else d.user
              samp5 := if f 6 then img.samp5 else d.samp5
              samp6 := if f 6 then img.samp6 else d.samp6
              samp7 := if f 6 then img.samp7 else d.samp7 }
            b.noAdapter d' = false → exec (.set q) s = .next ((b.setSess c.number d').answerCmd c 0)) ∧
          (e.cmd = 3 → d.state ≠ 0 ∨ b.restoring c.number = true → exec (.restore q) s = .next (b.answerCmd c 9)) ∧
          (e.cmd = 3 → d.state = 0 → b.restoring c.number = false →
            (∀ p, b.freePlace = some p → c.host = false → d.kept = true → exec (.restore q) s = .next ((b.toResident c.number p).answerCmd c 0)) ∧
            (∀ p, b.freePlace = some p → c.host = false → d.kept = false → exec (.restore q) s = .next (b.answerCmd c 5)) ∧
            (b.freePlace = none → exec (.restore q) s = .next (b.answerCmd c 4)) ∧
            (∀ p, b.freePlace = some p → c.host = true →
              ∃ t : State, exec (.restore q) s = .next t ∧ t.moving = b.moving.put c.number { c with image := p } ∧
                (b.readsOut c.queue < 16 → b.sends c.queue = true → t.out = b.out ++ [.rdmaRead c.queue c.va c.rkey (d.kvSize / 8 * 9)]) ∧
                (16 ≤ b.readsOut c.queue → t.out = b.out ∧ t.readWait = b.readWait ++ [c.number]))) ∧
          (e.cmd = 4 → d.state = 1 → idle c.number →
            (c.keep = true → exec (.evict q) s = .next ((b.toIdle c.number true).answerCmd c 0)) ∧
              (c.keep = false → c.host = true → s.mem.anyPoisonIn d.kvAddr d.kvSize = false →
                ∃ t : State, exec (.evict q) s = .next t ∧ t.moving = b.moving.put c.number c)) ∧
          (e.cmd = 5 → d.state = 1 → idle c.number →
            ∃ u : State, exec (.delete q) s = .next (u.answerCmd c 0) ∧ u.copyOf c.number = none ∧
              u.mem = b.mem.writeWords (sessAddr c.number) { d with valid := false, state := 0, drain := false }.words)) ∧
        (∀ w0 w1, e.cmd = 6 → b.mem.readWords c.image 2 = [w0, w1] →
          let a := c.number % 16384
          (0 < (s.adapter a).users → exec (.aload q) s = .next (b.answerCmd c 1)) ∧
          ((s.adapter a).users = 0 →
            ∃ u : State, exec (.aload q) s = .next (u.answerCmd c 0) ∧
              u.adapter a = ⟨true, bits w0 70 68, sgn 9 (bits w0 67 59), bits w0 58 51, bits w0 50 45, 0, bits w1 43 0⟩)) ∧
        (e.cmd = 7 → (s.adapter (c.number % 16384)).users = 0 → (s.adapter (c.number % 16384)).valid = true →
          ∃ u : State, exec (.adfree q) s = .next (u.answerCmd c 0) ∧ u.adapter (c.number % 16384) = .reset))

/-- O42. What ends session commands that take time (R329, R335): the copy of a RESTORE that landed makes the session Resident, and an EVICT whose copy the
host holds makes it Idle; a transfer that failed completes with XFER; a drain of 2 ms, which runs on in no freeze, ends without its step's record; an empty hold ends when a
candidate appears (R341). -/
def Obligations.SessionEvents : Prop :=
  ∀ (s : State) (i : Nat), i < 1048576 →
    (∀ c data, (s.moving.entries.find? fun e => e.1 == i && e.2.cmd == 3 && !(s.readWait.contains i)) = some (i, c) → (s.sess i).failed = false →
      let s1 := s.endMove i
      (data.length = (s.sess i).kvSize / 8 →
        exec (.restoreLanded i true data) s =
          .next (({ s1 with mem := s1.mem.writeWords (s.sess i).kvAddr data }.toResident i c.image).answerCmd c 0)) ∧
        exec (.restoreLanded i false data) s = .next (s1.answerCmd c 6)) ∧
    (∀ c, (s.moving.entries.find? fun e => e.1 == i && e.2.cmd == 4) = some (i, c) →
      let s1 := s.endMove i
      exec (.evictWritten i true) s = .next ((s1.toIdle i false).answerCmd c 0) ∧
        exec (.evictWritten i false) s = .next ((s1.setSess i { s1.sess i with drain := false }).answerCmd c 6)) ∧
    (∀ c, (s.draining.entries.find? fun e => e.1 == i) = some (i, c) →
      let u : State := { s with
        cmds := s.cmds.erase c
        dropped := if s.inStep i then s.dropped ++ [(i, (s.sess i).gen)] else s.dropped }
      (s.frozen = false →
        exec (.sessionDrainTimeout i) s = .next ((u.endDrain i).drained c) ∧ (u.endDrain i).draining = s.draining.erase i) ∧
        (s.frozen = true → exec (.sessionDrainTimeout i) s = .next s)) ∧
    (∀ n p b, s.prog n = some p → p.batch = some b → s.live = true → .hold ∈ p.stalls →
      (s.applyCmds.countMisses b s.tickNow).candidates b s.tickNow ≠ [] →
      ∃ u : State, exec (.emptyHoldRelease n) s = .next (u.updProg n fun p => { p.unstall .hold with stepStall := 0 }) ∧
        u = (s.applyCmds.countMisses b s.tickNow).selectBatch n p.step s.tickNow)

/-! ### Programs, escalations, resets and power states -/

/-- O43. Programs from start to commit (R88 to R90, R319, R361, R423, R436 to R447). A feeder read delivers one group of its stream; an empty queue whose stream has instructions to come stalls the
program; the start puts its cores at cycle 0 and its engines to work; a commit makes the step the last committed one, and ends the program where every engine is Halted; a
remount on one chip returns to the step's copy, and its third failure ends in a reset; a stall of 2 ms is a hang; an engine that still drains in the core's cycle that comes 2 ms later is halted; a cycle of
blocked MEs stops its programs. -/
def Obligations.ProgramEvents : Prop :=
  ∀ (s : State) (n : Nat) (p : Prog), s.prog n = some p →
    (∀ c eng x, c < 144 → eng < 6 → (s.core c).prog = some n → s.live = true → p.feeder = true → (p.starting || p.running) = true →
      p.stopping = false → s.feedable p c eng = some x → 64 * 1024 ≤ ((s.core c).te.reg 3).tokens64 →
      let k := ((s.core c).eng eng).ctx x.ctx
      ∃ t : State, exec (.feederRead c eng .none) s = .next t ∧
        ((t.core x.core).eng x.eng).ctx x.ctx = k.deliver (s.streamWords x k.supplied (128 - k.supplied % 128))) ∧
    (∀ c eng, c < 144 → eng < 6 → s.coreRuns c = true → (s.core c).prog = some n →
      let g := (s.core c).eng eng
      g.active = true → g.here.head = none → g.here.ended = false → g.here.supplied < g.here.total →
      exec (.feedStall c eng) s = .next (s.setProg n { p with stalls := [.feed c eng g.cur] })) ∧
    (s.live = true → p.starting = true → p.multi = false → s.filled p = true →
      ∃ (t : State) (p' : Prog), exec (.programStart n) s = .next t ∧ t.prog n = some p' ∧ p'.running = true ∧ p'.starting = false ∧
        .startup ∉ p'.stalls ∧ p'.t0 = 0 ∧ ∀ c ∈ p.cores, (t.core c).now = 0 ∧ ∀ e, ((t.core c).eng e).st ≠ .idle) ∧
    (∀ u q, s.settleProg n = u → u.prog n = some q → u.live = true → q.multi = false → u.replays n = false →
      (∀ v, u.vet = some v → v.prog = n → v.action ≠ 3) → u.commitReady q = true →
      ∃ t : State, exec (.stepCommit n) s = .next t ∧
        (u.lastStepOf q = true → t.prog n = none) ∧
        (u.lastStepOf q = false → ∃ q', t.prog n = some q' ∧ q'.committed = some q.step ∧ q'.step = (q.step + 1) % 2 ^ 36 ∧
          q'.stepErr = 0 ∧ q'.signals = [] ∧ ∀ c ∈ q.cores, ((t.core c).eng 0).boundary = false ∧ (t.core c).st.stepSlip = 0)) ∧
    (s.powered = true → p.running = true → p.stopping = false → p.trigs ≠ [] → s.frozen = false →
      (p.thirdFailure = true → ∃ t : State, exec (.remount n) s = .next t ∧ s.FreshCores t) ∧
      (p.thirdFailure = false → p.multi = false → p.remounting = false →
        ∃ (t : State) (p' : Prog), exec (.remount n) s = .next t ∧ t.prog n = some p' ∧ p'.trigs = [] ∧ p'.stalls = s.restLeft ∧ p'.step = p.step ∧
          p'.signals = p.signals ∧ ∀ c ∈ p.cores, (t.core c).sregs = (s.core c).saved.sregs ∧ (t.core c).now = p.t0 ∧ (t.core c).infl = [])) ∧
    (∀ st fl w, s.live = true → p.running = true → p.stopping = false → p.doneSent = false → p.remounting = false → .link st fl w ∈ p.stalls →
      ∃ (t : State) (p' : Prog), exec (.hang n) s = .next t ∧ t.prog n = some p' ∧ p'.trigs = p.trigs ++ [.hang]) ∧
    (∀ c eng, c < 144 → eng < 6 → s.live = true → ((s.core c).eng eng).st = .draining →
      let end_ := ((s.core c).eng eng).headFree + 4000000
      let u := s.bring c end_
      (((u.core c).eng eng).st ≠ .draining → exec (.engineDrainTimeout c eng) s = .next u) ∧
        (((u.core c).eng eng).st = .draining → u.coreRuns c = true → u.coreCycle c < end_ → exec (.engineDrainTimeout c eng) s = .next s) ∧
        (((u.core c).eng eng).st = .draining → u.coreRuns c = false ∨ end_ ≤ u.coreCycle c →
          ∃ t : State, exec (.engineDrainTimeout c eng) s = .next t ∧ ∀ e, ((t.core c).eng e).st = .off ∨ ((t.core c).eng e).st = .halted)) ∧
    (∀ c b, c < 144 → s.coreRuns c = true → b ∈ s.deadlocked → b.node = s.meNode 0xFFFF c →
      let here := ((s.deadSetOf c).filter fun b => b.node / 256 == s.chipId).map fun b => b.node % 256
      let all := here.foldl (fun m c => max m (s.memberDue c)) 0
      let t1 := here.foldl (fun m c => min m (s.memberTimeout c)) all
      let s1 := here.foldl (fun s c => s.work c fun env x => x.runTo env t1) s
      let s2 := here.foldl (fun s c => s.bring c (s1.cyc + 144 - s1.frame)) s1
      t1 ≤ (s1.core c).now → (s2.deadlocked.any fun b => b.node == s.meNode 0xFFFF c) = true → (s2.core c).prog = some n →
      ∃ t : State, exec (.channelDeadlock c) s = .next t ∧ t.prog n = none)

/-- O44. Programs that span chips (R374, R375, R440, R445, R454): a chip whose start condition is met is ready, and the coordinator notes the READY of each member;
RELEASE starts a member at T + 4 ns, where its counter is not being slewed, or is too late; STEP_DONE is noted; COMMIT commits, or ends a program all of whose
engines have ended; a REMOUNT stops a chip, or escalates one whose third attempt has failed, with the groups that its sender asks to widen, and
the step replays at T + 4 ns; ESCALATE ends the program with ESCALATED. -/
def Obligations.SpanningPrograms : Prop :=
  ∀ (s : State) (n : Nat) (p : Prog), s.prog n = some p → s.live = true → p.multi = true →
    (p.starting = true → p.running = false → p.stopping = false → s.chipId ∈ p.members → p.readySent = false → s.filled p = true → s.aligned = true →
      ∃ (t : State) (p' : Prog), exec (.barrierReady n s.chipId) s = .next t ∧ t.prog n = some p' ∧ p'.readySent = true ∧ s.chipId ∈ p'.ready) ∧
    (∀ m, p.running = false → p.stopping = false → m ∈ p.members → m ≠ s.chipId → s.leads p = true →
      ∃ (t : State) (p' : Prog), exec (.barrierReady n m) s = .next t ∧ t.prog n = some p' ∧ m ∈ p'.ready) ∧
    (∀ at_, p.starting = true → p.readySent = true → s.leads p = false → s.slew = 0 → s.time ≤ at_ → at_ + 4 < 2 ^ 64 →
      ∃ (t : State) (p' : Prog), exec (.barrierRelease n at_) s = .next t ∧ t.prog n = some p' ∧ p'.running = true ∧ t.time = at_ + 4 ∧ t.half = false) ∧
    (∀ at_, p.starting = true → p.readySent = true → s.leads p = false → at_ < s.time →
      ∃ t : State, exec (.barrierRelease n at_) s = .next t ∧ s.FreshCores t) ∧
    (p.starting = true → p.readySent = true → s.leads p = true → (∀ m ∈ p.members, m ∈ p.ready) → s.slew = 0 → s.releaseTime p + 4 < 2 ^ 64 →
      ∃ (t : State) (p' : Prog), exec (.barrierRelease n 0) s = .next t ∧ t.prog n = some p' ∧ p'.running = true ∧
        t.time = s.releaseTime p + 4 ∧ t.half = false) ∧
    (∀ m l, p.running = true → m ∈ p.members → m ≠ s.chipId → s.leads p = true → m ∉ p.done →
      exec (.stepDone n m l) s = .next (s.setProg n { p with
        done := p.done ++ [m], merged := p.merged ++ l.summaries
        stepped := if l.stepped then addOnce p.stepped m else p.stepped, ended := if l.ended then addOnce p.ended m else p.ended })) ∧
    (∀ u q l, s.settleProg n = u → u.prog n = some q → u.live = true → q.multi = true → q.running = true → u.chipId = s.chipId →
      u.chipId ∈ q.members → q.doneSent = false → u.commitReady q = true →
      ∃ (t : State) (q' : Prog), exec (.stepDone n s.chipId l) s = .next t ∧ t.prog n = some q' ∧ q'.doneSent = true ∧
        .commit ∈ q'.stalls ∧ s.chipId ∈ q'.done) ∧
    (∀ l, p.doneSent = true → p.remounting = false → (∀ v, s.vet = some v → v.prog = n → v.action ≠ 3) →
      (s.leads p = true → p.mayCommit = false → exec (.commitFlit n l) s = .next s) ∧
      (s.leads p = true → p.mayCommit = true → (∀ m ∈ p.members, m ∈ p.ended) →
        ∃ t : State, exec (.commitFlit n l) s = .next t ∧ t.prog n = none) ∧
      (s.leads p = false → l.last = true → ∃ t : State, exec (.commitFlit n l) s = .next t ∧ t.prog n = none) ∧
      ((s.leads p = true ∧ p.mayCommit = true ∧ ∃ m ∈ p.members, m ∉ p.ended) ∨ (s.leads p = false ∧ l.last = false) →
        ∃ (t : State) (p' : Prog), exec (.commitFlit n l) s = .next t ∧ t.prog n = some p' ∧ p'.committed = some p.step ∧
          p'.step = (p.step + 1) % 2 ^ 36 ∧ p'.doneSent = false ∧ .commit ∉ p'.stalls)) ∧
    (∀ m r, p.running = true → p.stopping = false → m ∈ p.members → m ≠ s.chipId → p.thirdFailure = true →
      ∃ t : State, exec (.remountFlit n m r) s = .next t ∧ s.FreshCores t) ∧
    (∀ m at_ err groups, p.running = true → p.stopping = false → m ∈ p.members → m ≠ s.chipId → p.thirdFailure = false →
      ∃ (t : State) (p' : Prog), exec (.remountFlit n m ⟨at_, err, groups⟩) s = .next t ∧ t.prog n = some p' ∧ p'.remounting = true ∧ p'.step = p.step ∧
        p'.errElse = (p.errElse || err) ∧ (∀ g ∈ groups, g ∈ p'.widenReq) ∧
        p'.replayAt = some (if s.leads p then p.replayAt.getD (s.releaseTime p) else at_)) ∧
    (∀ at_, s.powered = true → p.running = true → p.stopping = false → s.frozen = false → p.remounting = true → p.thirdFailure = false →
      p.replayAt = some at_ → s.slew = 0 → s.time ≤ at_ → at_ + 4 < 2 ^ 64 →
      ∃ (t : State) (p' : Prog), exec (.remount n) s = .next t ∧ t.prog n = some p' ∧ p'.remounting = false ∧ p'.trigs = [] ∧
        p'.step = p.step ∧ t.time = at_ + 4 ∧ t.half = false) ∧
    (∃ t : State, exec (.escalate n) s = .next t ∧ t.prog n = none)

/-- O45. An escalation (R453, R454, R474, R486, R492, R496, R525) ends in a warm reset, recorded as one by escalation: every program has ended, cores are as after
reset and the counts at 0. A core that a core fault names stays Failed. -/
def Obligations.Escalations : Prop :=
  ∀ s : State, s.powered = true →
    let warm (s : State) (o : Host.Outcome State Fault Refusal) : Prop :=
      ∃ t : State, o = .next t ∧ s.FreshCores t ∧ t.val 0x2200 4 = 4 ∧ t.frz = 0 ∧ t.pst = 0 ∧ t.timing = [] ∧ t.calibrated = true
    (∀ cause d, 0x0401 ≤ cause → cause ≤ 0x0404 → warm s (exec (.escalation cause d) s)) ∧
      (∀ c, c < 144 → c ∉ s.fuse.absent → warm (s.setCore c { s.core c with failed := true }) (exec (.coreFault c) s)) ∧
      (∀ cause, warm s (exec (.chipLevelError cause) s)) ∧ warm s (exec .pllUnlock s) ∧
      (∀ a b, crossing a b = true → warm s (exec (.crossingCalibrationLoss a b) s))

/-- O46. Resets (R484 to R490, R496, R565, R571, R576). A core reset ends every program; a warm reset by command is recorded as such; RESET_N, the 48 V input and the temperature hold the part in cold reset,
and the last that ends starts it; a cold reset by command starts at once, with memory to be zeroed; a power-on reset leaves time at 0 and the fuses as they are; without 3.3 V nothing works;
a pulse of RESET_N under 3 µs does nothing. -/
def Obligations.Resets : Prop :=
  ∀ s : State,
    (s.pins.held = 0 → s.managed = true →
      ∃ t : State, exec .coreReset s = .next t ∧ s.FreshCores t ∧ t.val 0x6000 1 = 0 ∧ t.val 0x2200 4 = 6 ∧ (s.clocks = true → t.calibrated = true)) ∧
    (s.pins.held = 0 → s.managed = true →
      ∃ t : State, exec .warmReset s = .next t ∧ s.FreshCores t ∧ t.val 0x6000 1 = 0 ∧ t.val 0x2200 4 = 3 ∧ t.clocks = true ∧ t.calibrated = true ∧
        t.time = s.time ∧ t.fuse = s.fuse) ∧
    (s.pins.held = 0 → s.managed = true →
      ∃ t : State, exec (.coldReset false) s = .next t ∧ (∀ n, t.prog n = none) ∧ t.cyc = 0 ∧ t.zeroed = false ∧ t.clocks = true ∧ t.val 0x2200 4 = 2 ∧
        t.time = s.time ∧ t.fuse = s.fuse ∧ t.near = s.near ∧ t.off = s.off ∧ t.flash = s.flash) ∧
    (∃ t : State, exec (.coldReset true) s = .next t ∧ t.pins.held = s.pins.held ||| 1 ∧ t.pins.resetN = false ∧
      (s.pins.held = 0 → t.clocks = false ∧ t.val 0x2200 4 = 1)) ∧
    (∃ t : State, exec .powerOnReset s = .next t ∧ t.time = 0 ∧ t.half = false ∧ t.cyc = 0 ∧ t.clocks = false ∧ t.zeroed = false ∧ t.fuse = s.fuse ∧
      t.flash = s.flash ∧ (∀ n, t.prog n = none) ∧ t.managed = false ∧ t.pins.held = 1 ||| (s.pins.held &&& 6)) ∧
    (s.pins.held = 1 → ∃ t : State, exec .resetRelease s = .next t ∧ t.pins.held = 0 ∧ t.pins.resetN = true ∧ t.clocks = true ∧ t.cyc = 0) ∧
    (s.powered = true → s.zeroed = false → s.frozen = false → exec .zeroingComplete s = .next { s with zeroed := true, nearSt := 1, farSt := 1 }) ∧
    (∀ ns, ns < 3000 → exec (.resetN ns) s = .next s) ∧
    (∀ ns, 5000 ≤ ns → exec (.resetN ns) s = exec (.coldReset true) s) ∧
    (s.pins.held = 0 → ∀ i ∈ [((Instr.input48vLow, 2, 0x20) : Instr × Nat × Nat), (.input48vHigh, 2, 0x22), (.overTemperature, 4, 0x21)],
      ∃ t : State, exec i.1 s = .next t ∧ t.pins.held = i.2.1 ∧ t.clocks = false ∧ (∀ n, t.prog n = none) ∧
        t.events.get ⟨0, 0, 0, 0, 0, 0, 0, 0, 0, 0⟩ (s.val 0x7000 1) = ⟨s.time, 0x0403, 4, 0, 0, 0xFF, 0, 0, 0, i.2.2⟩) ∧
    (s.pins.held = 2 → ∃ t : State, exec .input48vRecovery s = .next t ∧ t.pins.held = 0 ∧ t.clocks = true) ∧
    (s.pins.held = 4 → ∃ t : State, exec .thermalRecovery s = .next t ∧ t.pins.held = 0 ∧ t.clocks = true) ∧
    (∃ t : State, exec .input3v3Low s = .next t ∧ t.clocks = false ∧ t.live = false ∧ t.pins.held &&& 8 = 8)

/-- O47. Power states (R482, R483): Idle is refused while a program runs, Parked and Standby while one is loaded; Parked resets the cores and keeps memory; Standby stops the clocks as well, and only the management
segment ends it; the return to Active takes the exit. -/
def Obligations.PowerStates : Prop :=
  ∀ s : State, s.pins.held = 0 → s.managed = true →
    (s.anyRuns = true → exec .requestIdle s = .next s) ∧
    (s.progs.entries ≠ [] → exec .requestParked s = .next s ∧ exec .requestStandby s = .next s) ∧
    (s.anyRuns = false → s.pst = 0 → s.exiting = false →
      ∃ t : State, exec .requestIdle s = .next t ∧ t.pst = 1 ∧ t.val 0x2200 1 = 1 ∧ t.cores = s.cores ∧ t.mem = s.mem) ∧
    (s.progs.entries = [] → s.pst ≤ 1 → s.exiting = false →
      (∃ t : State, exec .requestParked s = .next t ∧ t.pst = 2 ∧ t.val 0x2200 1 = 2 ∧ t.mem = s.mem ∧ t.clocks = s.clocks ∧
        (∀ c, t.core c = .reset ∨ t.core c = { Core.reset with failed := true }) ∧ ∀ w, (t.win w).st = 0) ∧
      (∃ t : State, exec .requestStandby s = .next t ∧ t.pst = 3 ∧ t.val 0x2200 1 = 3 ∧ t.mem.words = s.mem.words ∧ t.clocks = false ∧
        (∀ c, t.core c = .reset ∨ t.core c = { Core.reset with failed := true }) ∧ ∀ q, t.queue q = .reset)) ∧
    (s.pst = 3 → exec (.requestActive false) s = .next s) ∧
    (0 < s.pst → ∃ t : State, exec (.requestActive true) s = .next t ∧ t.exiting = true ∧ t.val 0x2200 1 = 0 ∧ t.pst = s.pst) ∧
    (s.exiting = true → ∃ t : State, exec .exitToActive s = .next t ∧ t.pst = 0 ∧ t.exiting = false ∧
      (2 ≤ s.pst → s.pst ≤ 3 → t.nearSt = 1 ∧ t.farSt = 1 ∧ t.calibrated = true) ∧ (s.pst = 3 → t.clocks = true))

/-! ### Memory, banks, vetting and freezes -/

/-- O48. Near and far memory (R252 to R263). A rest window is reached by waiting for it, unless the stack's program is held; the first re-read of a span is hidden, a later one holds the program for at least
97 cycles, after any that hold it already; a block that fails again is poisoned where no mirror can give it; a mirror gives a block back; a split block is found by the scrubber, which poisons a block that fails again
and corrects scratchpad words; a region whose copy is complete is Active; a commit of a state that R259 or R261 forbids changes nothing. -/
def Obligations.MemoryEvents : Prop :=
  ∀ s : State, s.counts = true →
    (∀ k, k < 6 → k < s.rest.length → s.nearOwner k = none →
      ∃ t : State, exec (.restWindow k) s = .next t ∧ t.mem = s.mem ∧ 7360 ≤ t.restOf k % 7680) ∧
    (∀ k n p, k < 6 → s.nearOwner k = some (n, p) → p.stalls ≠ [] → s.toRest k ≠ 0 → exec (.restWindow k) s = .next s) ∧
    (∀ a st, isNear a = true → s.spans.get 0 (nearStack a) ≠ s.restOf (nearStack a) / 64 + 1 →
      ∃ t : State, exec (.nearReread a true st) s = .next t ∧ t.mem = s.mem ∧ t.progs = s.progs ∧
        t.spans.get 0 (nearStack a) = s.restOf (nearStack a) / 64 + 1) ∧
    (∀ a st n p, isNear a = true → s.spans.get 0 (nearStack a) = s.restOf (nearStack a) / 64 + 1 → s.nearOwner (nearStack a) = some (n, p) →
      s.prog n = some p →
      ∃ (t : State) (q : Prog), exec (.nearReread a true st) s = .next t ∧ t.mem = s.mem ∧ t.prog n = some q ∧
        ((∀ k, Stall.reread k ∉ p.stalls) → .reread (max 97 st) ∈ q.stalls) ∧ ∀ k, Stall.reread k ∈ p.stalls → .reread (k + max 97 st) ∈ q.stalls) ∧
    (∀ a st, isNear a = true → s.mirrored a = false →
      ∃ t : State, exec (.nearReread a false st) s = .next t ∧ t.mem.poisoned a = true ∧ t.mem.words = s.mem.words) ∧
    (∀ a st r, s.mem.mirrorOf a = some r → r.state = 1 →
      (∃ t : State, exec (.mirrorRead a true st) s = .next t ∧ t.mem = s.mem.copyBlock (r.mirror + (a / 64 * 64 - r.primary)) a) ∧
        ∃ t : State, exec (.mirrorRead a false st) s = .next t ∧ t.mem = s.mem.poison a) ∧
    (∀ a f, s.val 0x3110 1 = 0 → exec (.scrubRead a f) s = .next s) ∧
    (∀ a, s.val 0x3110 1 ≠ 0 → region s.fuse.absent a = .far → isNear a = false →
      (s.activeRegion a = none → exec (.scrubRead a .none) s = .next (s.countScrub a)) ∧
        (∀ n, s.activeRegion a = some n → s.copiesDiffer n a = true →
          ∃ t : State, exec (.scrubRead a .none) s = .next t ∧ t.val 0x3100 (4 * n + 4) = 2) ∧
        (∀ b : BadBlock, b.again = true → s.mem.mirrorOf a = none → s.mem.mirrorOf (a / 64 * 64) = none →
          ∃ t : State, exec (.scrubRead a (.failed [b])) s = .next t ∧ t.mem.poisoned a = true ∧ t.mem.words = s.mem.words)) ∧
    (∀ a f, s.val 0x3110 1 ≠ 0 → region s.fuse.absent a = .near (nearStack a) → s.nearWaits a = true → exec (.scrubRead a f) s = .next s) ∧
    (∀ a c off, s.val 0x3110 1 ≠ 0 → region s.fuse.absent a = .scratch c off →
      let u := s.bgSlot c
      off / 8 * 8 + 8 ≤ scratchSize → ((s.bgWait c).core c).scr.bgTakes none (wordsOf (off / 8 * 8) 8) = true →
      ∃ t : State, exec (.scrubRead a .none) s = .next t ∧ (t.core c).scr.upset.get 0 (off / 8) = 0 ∧
        (t.core c).bgFree = (u.core c).bgFree + (if (u.core c).scr.upset.get 0 (off / 8) = 1 then 4 else 0)) ∧
    (∀ n, n < 32 → (s.mirrorRow n).state = 3 →
      ∃ t : State, exec (.mirrorSyncDone n) s = .next t ∧ (t.mirrorRow n).state = 1 ∧ t.mem.mirrors = t.mirrorRows ∧
        t.mem.words = (s.mem.copyRange (s.mirrorRow n).primary (s.mirrorRow n).mirror ((s.mirrorRow n).size / 64)).words) ∧
    (∀ n st, n < 32 → s.commits = true →
      let u := s.setVal 0x3100 (4 * n + 4) st
      (u.mirrorsCommit s.mirrorRow = false → exec (.mirrorState n st) s = .next s) ∧
        (st ≤ 3 → u.mirrorsCommit s.mirrorRow = true →
          ∃ t : State, exec (.mirrorState n st) s = .next t ∧ t.mem.mirrors = t.mirrorRows ∧
            ∀ k, k < 32 → mirrorNext (s.mirrorRow k) (u.mirrorRow k) = some (t.mirrorRow k).state)) ∧
    (∀ on, s.commits = true → exec (.scrubberEnable on) s = .next (s.setVal 0x3110 1 (b2n on)))

/-- O49. Bank power and the core map (R240 to R242, R519, R525). A bank word wakes the banks it sets and drains those it clears; a bank awake has every word unwritten, a bank that has drained is off; a map that
names an absent core fails; a core that is disabled stops its program. -/
def Obligations.BankPower : Prop :=
  ∀ s : State, s.counts = true → s.commits = true →
    (∀ c m, c < 144 → s.banksOk c m = false → exec (.banksCore c m) s = .next s) ∧
    (∀ c m, c < 144 → s.banksOk c m = true →
      ∃ t : State, exec (.banksCore c m) s = .next t ∧
        let a := (s.core c).scr
        let b := (t.core c).scr
        b.banksReq = m ∧ b.cells = a.cells ∧ b.banksOn = a.banksOn ∧
          ∀ i, i < 16 → (nbit m i = true → nbit a.banksOn i = false → nbit b.banksWaking i = true) ∧
            (nbit m i = false → nbit a.banksOn i = true → nbit b.banksDraining i = true) ∧
            (nbit m i = false → nbit a.banksOn i = false → nbit b.banksWaking i = false)) ∧
    (∀ c i, c < 144 → i < 16 → nbit (s.core c).scr.banksWaking i = true →
      ∃ t : State, exec (.bankWake c i) s = .next t ∧
        let b := (t.core c).scr
        nbit b.banksOn i = true ∧ nbit b.banksWaking i = false ∧
          ∀ q, b.cell q = if bankOfWord q = i then .blank else (s.core c).scr.cell q) ∧
    (∀ c i, c < 144 → i < 16 → nbit (s.core c).scr.banksDraining i = true →
      ∃ t : State, exec (.bankDrainTimeout c i) s = .next t ∧
        let b := (t.core c).scr
        nbit b.banksOn i = false ∧ nbit b.banksDraining i = false ∧ nbit b.banksWaking i = (nbit (s.core c).scr.banksReq i || nbit (s.core c).scr.banksWaking i) ∧
          ∀ q, b.cell q = if bankOfWord q = i then .blank else (s.core c).scr.cell q) ∧
    (∀ k m, k < 3 → (s.setVal 0x4000 (5 + k) m).coreMapOk = false → exec (.coreEnable k m) s = .next s) ∧
    (∀ k m, k < 3 → m < 2 ^ 64 →
      let u := s.setVal 0x4000 (5 + k) m
      u.coreMapOk = true →
        ((∀ n p, (n, p) ∈ s.progs.entries → ∀ c ∈ p.cores, c < 144 → nbit s.enabledMask c = true → nbit u.enabledMask c = true) →
          exec (.coreEnable k m) s = .next u) ∧
        ∃ t : State, exec (.coreEnable k m) s = .next t ∧
          ∀ n p, s.prog n = some p → (∃ c ∈ p.cores, c < 144 ∧ nbit s.enabledMask c = true ∧ nbit u.enabledMask c = false) →
            t.prog n = none ∨ ∃ q, t.prog n = some q ∧ q.stopping = true)

/-- O50. Vetting runs (R458 to R466). Patterns runs at once where the program it names is not running, else it is armed; a Record is armed for the commit of a step and refused where it has no room; a Replay
runs the recorded step on a twin, at once or from the next step boundary of a program that runs, and ends where the twin's step would commit; nothing begins while a run is armed or running. A pattern that fails on a core is a core fault. -/
def Obligations.VettingRuns : Prop :=
  ∀ s : State, s.commits = true → s.live = true →
    (∀ l n a st, s.vet.isSome = true →
      exec (.patterns l n) s = .next s ∧ exec (.record n st a) s = .next s ∧ exec (.replay n) s = .next s) ∧
    (∀ l n, s.vet = none →
      ∃ (t : State) (v : Vet), exec (.patterns l n) s = .next t ∧ t.vet = some v ∧ v.action = 1 ∧ v.prog = n ∧ v.running = !(s.isRunning n) ∧
        t.val 0x7200 1 = 1 ∧ t.val 0x7200 2 = n ∧
        ∀ c, c ∈ v.cores ↔ c ∈ l ∧ c < 144 ∧ c ∉ s.fuse.absent) ∧
    (∀ n st a, s.vet = none → s.recordOk n a = false → exec (.record n st a) s = .next s) ∧
    (∀ n st a, s.vet = none → s.recordOk n a = true →
      ∃ t : State, exec (.record n st a) s = .next t ∧ t.vet = some ⟨2, n, [], st, a, false, none⟩ ∧ t.val 0x7200 6 = st ∧ t.val 0x7200 7 = a) ∧
    (∀ n p, s.vet = none → s.prog n = some p →
      let a := s.val 0x7200 7
      let r := s.recordAt a
      (p.running = false → p.starting = false →
        ∃ (t : State) (q : Prog), exec (.replay n) s = .next t ∧ t.vet = some ⟨3, n, p.cores, r.step, a, true, none⟩ ∧ t.val 0x7200 8 = 2 ∧
          t.prog n = some q ∧ q.running = true ∧ q.step = r.step ∧ q.stepNo = r.stepNo ∧ q.trigs = []) ∧
        (p.running = true ∨ p.starting = true →
          ∃ t : State, exec (.replay n) s = .next t ∧ t.vet = some ⟨3, n, p.cores, 0, a, false, none⟩ ∧ t.val 0x7200 8 = 1 ∧ t.progs = s.progs)) ∧
    (∀ v p, s.vet = some v → v.running = true → v.action = 3 → (s.settleProg v.prog).prog v.prog = some p →
      (s.settleProg v.prog).commitReady p = false → ∀ f, exec (.vettingRunEnd f) s = .next s) ∧
    (∀ v, s.vet = some v → v.running = true → v.action = 1 →
      (∃ t : State, exec (.vettingRunEnd none) s = .next t ∧ t.vet = none ∧ ∀ c ∈ v.cores, (t.core c).nearSince = 0) ∧
        ∀ c, c ∈ v.cores → ∃ t : State, exec (.vettingRunEnd (some c)) s = .next t ∧ s.FreshCores t ∧ (t.core c).failed = true)

/-- O51. Freezes (R554 to R561, R571). A source freezes the part and is recorded with the cycle count and time, unless a freeze is in place (of sources that meet in one ns the first of the list is recorded); a trigger that is armed freezes it at its value; a read-out passes through Reading to Read; Test mode thaws, Service
mode escalates. -/
def Obligations.Freezes : Prop :=
  ∀ s : State,
    let froze (u : State) (src : Nat) (o : Host.Outcome State Fault Refusal) : Prop :=
      ∃ t : State, o = .next t ∧ t.frz = 2 ∧ t.val 0x9000 6 = src ∧ t.val 0x9000 7 = u.cyc ∧ t.val 0x9000 8 = u.time ∧ t.nearSt = 2 ∧ t.farSt = 2 ∧
        t.cores = u.cores ∧ t.mem = u.mem
    (s.frozen = true → s.frz ≠ 2 ∨ s.val 0x9000 8 ≠ s.time ∨ s.val 0x9000 6 ≤ 1 →
      exec .freezeNow s = .next s ∧ ∀ ns, exec (.freezeN ns) s = .next s) ∧
    (s.frz = 2 → s.powered = true → s.val 0x9000 8 = s.time → 1 < s.val 0x9000 6 → ∀ ns, 20 ≤ ns →
      exec (.freezeN ns) s = .next (s.setVal 0x9000 6 1)) ∧
    (s.managed = true → s.frozen = false → s.powered = true → froze s.runAll 2 (exec .freezeNow s)) ∧
    (∀ ns, 20 ≤ ns → s.frozen = false → s.powered = true → froze s.runAll 1 (exec (.freezeN ns) s)) ∧
    (∀ ns, ns < 20 → exec (.freezeN ns) s = .next s) ∧
    (∀ a, s.managed = true → s.frozen = false → a < 2 ^ 64 →
      ∃ t : State, exec (.armTimeTrigger a) s = .next t ∧ t.frz = 1 ∧ t.val 0x9000 1 = 1 ∧ t.val 0x9000 3 = a) ∧
    (∀ n a p, s.managed = true → s.frozen = false → a < 2 ^ 64 → n < 65536 → s.prog n = some p →
      ∃ t : State, exec (.armCycleTrigger n a) s = .next t ∧ t.frz = 1 ∧ t.val 0x9000 1 = 2 ∧ t.val 0x9000 2 = n ∧ t.val 0x9000 3 = a ∧
        t.fired = (p.running && decide (a < s.progCycle p))) ∧
    (s.managed = true → ∀ n a, s.prog n = none → n < 65536 → exec (.armCycleTrigger n a) s = .next s) ∧
    (s.frz = 1 → s.val 0x9000 1 = 1 → s.counts = true → s.slew = 0 → s.time ≤ s.val 0x9000 3 → s.val 0x9000 3 < 2 ^ 64 → s.progs.entries = [] →
      ∃ t : State, exec .timeTrigger s = .next t ∧ t.frz = 2 ∧ t.val 0x9000 6 = 3 ∧ s.val 0x9000 3 ≤ t.time) ∧
    (∀ p, s.prog (s.val 0x9000 2) = some p → s.frz = 1 → s.val 0x9000 1 = 2 → s.fired = false → p.running = true → s.live = true →
      let at_ := s.val 0x9000 3
      let now := s.progCycle p
      (now = at_ → froze ({ s with fired := true } : State).runAll 4 (exec .cycleTrigger s)) ∧
        (now < at_ → p.issues = true → froze ({ s.addCycles (at_ - now) with fired := true } : State).runAll 4 (exec .cycleTrigger s)) ∧
        (at_ < now → exec .cycleTrigger s = .next s)) ∧
    (s.managed = true → s.readoutOk = true →
      ∃ t : State, exec .readoutStart s = .next t ∧ t.frz = 3 ∧ t.val 0x9000 0xF = s.stateImage.length ∧ t.val 0x9000 0x10 = 0) ∧
    (s.frz = 3 → ∀ m,
      (∃ t : State, exec (.readoutComplete true m) s = .next t ∧ t.frz = 4 ∧ t.val 0x9000 0x10 = s.val 0x9000 0xF) ∧
        ∃ t : State, exec (.readoutComplete false m) s = .next t ∧ t.frz = 4 ∧ t.val 0x9000 0x10 = min m (s.val 0x9000 0xF - 1)) ∧
    (s.managed = true → s.endOk = true → s.val 0x9000 4 = 1 → exec .endTest s = .next { s with frz := 0, nearSt := 1, farSt := 1 }) ∧
    (s.managed = true → s.endOk = true → s.val 0x9000 4 = 0 →
      ∃ t : State, exec .endService s = .next t ∧ s.FreshCores t ∧ t.frz = 0 ∧ t.val 0x2200 4 = 4)

/-- O52. Removed time and the limiter (R475 to R481, R491). A stretch of a core group removes one core cycle from every domain and one of another domain two, and no domain asks in two consecutive cycles of its own; more
than 125 in 1,000 ns force a rest window of 320 cycles; a draw within the limit lets the limiter go, one above it takes the next level; the time counter steps by the offset of the
first edge and slews by later ones of at most 1,000 ns, never back and by at most 200 ppm. -/
def Obligations.RemovedTime : Prop :=
  ∀ s : State,
    (∀ d, d < 39 → s.domRuns d = true → s.slew = 0 → s.time + 2 < 2 ^ 64 → (s.lastStretch.entries.find? fun e => e.1 == d) = none →
      ∃ t : State, exec (.stretch d) s = .next t ∧ t.cyc = s.cyc ∧
        2 * t.time + b2n t.half = 2 * s.time + b2n s.half + (if d < 36 then 1 else 2) ∧ t.deficit = deficits s.deficit (if d < 36 then 1 else 2) d) ∧
    (∀ d x, d < 39 → (s.lastStretch.entries.find? fun e => e.1 == d) = some x → s.domCycle d ≤ x.2 + 1 → exec (.stretch d) s = .next s) ∧
    (s.counts = true → 125 < s.windowSum → s.inForced = false →
      ∃ t : State, exec .forcedRestWindow s = .next t ∧ t.forcedTo = s.cyc + 320 ∧ ∀ n p, s.prog n = some p → p.running = true →
        ∃ q, t.prog n = some q ∧ .rest 320 ∈ q.stalls) ∧
    (s.windowSum ≤ 125 → exec .forcedRestWindow s = .next s) ∧
    (∀ e, s.powered = true → s.frozen = false → s.limiter = 0 → s.cyc / 4096 = s.furlongNo →
      (e * 1000 ≤ s.val 0x2100 1 * 2048 →
        ∃ t : State, exec (.limiterMeasurement e false) s = .next t ∧ t.limiter = 0 ∧ t.furlong = s.furlong + e) ∧
        (s.val 0x2100 1 * 2048 < e * 1000 →
          ∃ t : State, exec (.limiterMeasurement e false) s = .next t ∧ t.limiter = 1 ∧ t.furlong = s.furlong + e)) ∧
    (∀ e b, s.powered = false ∨ s.frozen = true → s.pins.held &&& 8 = 0 → exec (.limiterMeasurement e b) s = .next (s.usedEnergy e)) ∧
    (∀ e, s.powered = true → s.frozen = false → s.slew = 0 → s.time + 256 < 2 ^ 64 → s.cyc / 4096 = s.furlongNo → 0 < s.limiter → s.limiter ≤ 3 →
      s.val 0x2100 1 * 2048 < e * 1000 →
      ∃ t : State, exec (.limiterMeasurement e false) s = .next t ∧ t.limiter = min 3 (s.limiter + 1) ∧
        2 * t.time + b2n t.half = 2 * s.time + b2n s.half + limiterCycles s.limiter) ∧
    (∀ o : Int, s.managed = true → s.val 0x1010 9 ≠ 0 → s.val 0x2000 9 ≠ 0 →
      (s.val 0x2000 0xA ≤ 1 → s.progs.entries = [] →
        ∃ t : State, exec (.timePps o) s = .next t ∧ t.time = (((s.time : Int) - o) % 2 ^ 64).toNat ∧ t.slew = 0 ∧ t.val 0x2000 0xA = 2) ∧
      (2 ≤ s.val 0x2000 0xA ∨ s.progs.entries ≠ [] → o.natAbs ≤ 1000 →
        ∃ t : State, exec (.timePps o) s = .next t ∧ t.time = s.time ∧ t.slew = -o ∧ t.val 0x2000 0xA = 3) ∧
      (2 ≤ s.val 0x2000 0xA ∨ s.progs.entries ≠ [] → 1000 < o.natAbs →
        ∃ t : State, exec (.timePps o) s = .next t ∧ t.time = s.time ∧ t.slew = s.slew)) ∧
    (∀ n, s.time + 2 * n < 2 ^ 64 →
      s.time ≤ (s.passNs n).time ∧ ((s.passNs n).time : Int) + (s.passNs n).slew = s.time + n + s.slew ∧
        5000 * ((s.passNs n).slew - s.slew).natAbs ≤ s.slewNs + n)

/-! ### The fabric and the host attachment -/

/-- O53. The link layer of a Jizia port (R357, R358, R359, R371). A flit with a bad CRC, or out of order, is discarded with a NAK, and nothing else of it counts; one in order moves the next SEQ on by one; a NAK sends again what
follows the flit it names, and the sixteenth for one SEQ retrains, as do a missing ACK and the loss of a lane; the retraining done, fast or full, the port goes on with its sequences and its replay buffer; at the time limit it goes
Down, or to Disabled where it has been disabled, which is a chip-level error where Scheduled flows use it. -/
def Obligations.LinkLayer : Prop :=
  ∀ (s : State) (p : Nat), p < 12 → s.linked = true →
    let j := s.jport p
    (∃ f r, (s.sendNak p).out = s.out ++ .flit p f :: r ∧ Flit.typ f = 5 ∧ Flit.kind f = 1) ∧
    (∀ f, j.carries = true → Flit.crcOk f = false →
      ∃ t : State, exec (.flitReceive p f) s = .next t ∧ (t.jport p).discarding = true ∧ (t.jport p).recvSeq = j.recvSeq ∧ t.cores = s.cores ∧
        t.mem = s.mem ∧ t.out = (s.sendNak p).out) ∧
    (∀ f, j.carries = true → Flit.crcOk f = true → Flit.sequenced f = true → Flit.seq f ≠ j.recvSeq →
      (j.discarding = true → exec (.flitReceive p f) s = .next s) ∧
        (j.discarding = false → ∃ t : State, exec (.flitReceive p f) s = .next t ∧ (t.jport p).discarding = true ∧ t.mem = s.mem ∧
          t.cores = s.cores ∧ t.out = (s.sendNak p).out)) ∧
    (∀ f, j.carries = true → Flit.crcOk f = true →
      (Flit.sequenced f = true → Flit.seq f = j.recvSeq →
        ∃ t : State, exec (.flitReceive p f) s = .next t ∧ (t.jport p).recvSeq = (j.recvSeq + 1) % 4096 ∧ (t.jport p).discarding = false) ∧
      (Flit.sequenced f = false →
        ∃ t : State, exec (.flitReceive p f) s = .next t ∧ (t.jport p).recvSeq = j.recvSeq ∧ t.mem = s.mem ∧ t.cores = s.cores)) ∧
    (∀ q, j.carries = true → j.nakRun = 0 ∨ j.nakSeq ≠ q →
      ∃ t : State, exec (.nak p q) s = .next t ∧ (t.jport p).nakRun = 1 ∧ (t.jport p).nakSeq = q ∧ (t.jport p).st = j.st ∧
        t.out = s.out ++ (j.acked q).replay.map fun f => .flit p f.flit) ∧
    (∀ q, j.carries = true → j.nakRun = 15 → j.nakSeq = q →
      ∃ t : State, exec (.nak p q) s = .next t ∧ (t.jport p).st = 1 ∧ (t.jport p).retrain = true ∧ t.out = s.out) ∧
    (j.carries = true → j.replay ≠ [] →
      ∃ t : State, exec (.ackTimeout p) s = .next t ∧ (t.jport p).st = 1 ∧ (t.jport p).retrain = true ∧ (t.jport p).replay = j.replay) ∧
    (∀ l, l < 4 → j.carries = true ∨ j.st = 2 →
      ∃ t : State, exec (.laneLockLoss p l) s = .next t ∧ (t.jport p).st = 1 ∧ (t.jport p).retrain = true ∧ (t.jport p).lanes = setBit j.lanes l false) ∧
    (∀ fast ps, j.retrain = true → j.st = 1 ∨ j.st = 2 →
      ∃ t : State, exec (.retrainComplete p ⟨fast, ps⟩) s = .next t ∧ t.val (0x1200 + p) 4 = ps % 2 ^ 32 ∧
        (t.jport p).st = (if s.val (0x1200 + p) 1 = 0 then 6 else calState ps (s.val (0x1200 + p) 3)) ∧
        (t.jport p).retrain = false ∧ (t.jport p).lanes = 15 ∧ (t.jport p).lat = s.val (0x1200 + p) 3 ∧ (t.jport p).recvSeq = j.recvSeq ∧
        ∃ l, (t.jport p).replay = j.replay ++ l) ∧
    (j.retrain = true → j.st = 1 ∨ j.st = 2 →
      (s.scheduledOver p = false →
        ∃ t : State, exec (.portDownTimeout p) s = .next t ∧
          t.jport p = { JPort.reset with st := if s.val (0x1200 + p) 1 = 0 then 7 else 0, lat := j.lat }) ∧
        (s.scheduledOver p = true → ∃ t : State, exec (.portDownTimeout p) s = .next t ∧ s.FreshCores t))

/-- O54. Bring-up, time and Scheduled delivery (R319, R357, R360, R368 to R373, R377). A port that trains goes to Calibrating and sends INIT; INIT checks versions and the peer, and CAL goes out; CAL brings the port Up, or Open-only where the
declared latency is too small; TIME from the
port on the way to the root steps the time counter and, once it has, is what it slews toward; a flit that is due leaves its timing buffer at its cycle, or its port, and lands in its receive ring or joins its contribution, and where it is missing the program is held; a port is
disabled by way of Draining, unless Scheduled flows use it; a chip takes its place only with no program loaded. That the last piece of a contribution makes it arrive, and from which source, is the model's choice (log 129). -/
def Obligations.PortBringUp : Prop :=
  ∀ (s : State) (p : Nat), p < 12 → s.linked = true → s.commits = true →
    let j := s.jport p
    let sends (t : State) (kind : Nat) : Prop := ∃ f r, t.out = s.out ++ .flit p f :: r ∧ Flit.typ f = 5 ∧ Flit.kind f = kind
    (s.portMay p = true → j.st = 1 ∨ (j.st = 0 ∧ s.val (0x1200 + p) 1 = 1) →
      ∃ t : State, exec (.linkTrained p) s = .next t ∧ (t.jport p).st = 2 ∧ (t.jport p).lanes = 15 ∧ sends t 2) ∧
    (∀ c q v, j.st = 2 →
      let common := nbit (v &&& s.val 0x10 2) 0
      ∃ t : State, exec (.init p c q v) s = .next t ∧
        (common = true ∨ s.scheduledOver p = false → t.val (0x1200 + p) 5 = c % 65536 ∧ t.val (0x1200 + p) 6 = q % 256) ∧
        (common = false → s.scheduledOver p = false → (t.jport p).st = (if s.val (0x1200 + p) 1 = 0 then 7 else 0) ∧ t.val (0x1200 + p) 7 = 0) ∧
        (common = false → s.scheduledOver p = true → s.FreshCores t) ∧
        (common = true → (c, q) ≠ s.peerOf p → (t.jport p).st = 5) ∧
        (common = true → (c, q) = s.peerOf p → (t.jport p).st = 2 ∧ t.val (0x1200 + p) 7 = 1 ∧ sends t 3)) ∧
    (∀ ps, j.st = 2 → s.val (0x1200 + p) 7 ≠ 0 →
      ∃ t : State, exec (.cal p ps) s = .next t ∧ t.val (0x1200 + p) 4 = ps % 2 ^ 32 ∧ (t.jport p).retrain = false ∧
        (t.jport p).st = if s.val (0x1200 + p) 1 = 0 then 6 else if cdiv (2 * ps) 1000 + 8 ≤ s.val (0x1200 + p) 3 then 3 else 4) ∧
    (∀ d a, j.st = 3 → s.rootPort = some p →
      ∃ t : State, exec (.time p d a) s = .next t ∧ t.val 0x1010 0xA = (if a then 2 else max 1 (s.val 0x1010 0xA)) ∧ t.cyc = s.cyc ∧
        (s.val 0x1010 0xA = 0 → t.time = (((s.time : Int) + d) % 2 ^ 64).toNat ∧ t.slew = 0) ∧
        (s.val 0x1010 0xA ≠ 0 → t.time = s.time ∧ t.slew = d)) ∧
    (∀ d a, s.rootPort ≠ some p → exec (.time p d a) s = .next s) ∧
    (∀ c k w, s.live = true → s.isHere c = false →
      ∃ t : State, exec (.beaconFlit c k w) s = .next t ∧
        (w = [] → ∀ b ∈ t.beacons, b.node ≠ s.meNode c k) ∧
        (w ≠ [] → ⟨s.meNode c k, w.map fun x => s.meNode x.1 x.2⟩ ∈ t.beacons)) ∧
    (∀ n pr fl wd, s.live = true → s.prog n = some pr → pr.issues = true → (pr.slots.flows.any fun x => x.station == p && x.flow == fl) = true →
      (∀ x rest, takeFirst (fun t => t.station == p && t.prog == n && t.flow == fl && t.word == wd) s.timing = some (x, rest) →
        ∀ w, (pr.slots.flows.find? fun y => y.station == p && y.flow == fl) = some w →
          let u := { s with timing := rest }.addCycles (x.due - s.progCycle pr)
          let old := match u.parts.find? fun y => y.prog == n && y.flow == w.flow with | some y => if wd = 0 then [] else y.data | none => []
          let k := u.core w.core
          let at_ := max (x.due + Config.stationLead w.core) k.now
          (s.slew = 0 → s.time + x.due < 2 ^ 64 → 2 * u.time + b2n u.half = 2 * s.time + b2n s.half + (x.due - s.progCycle pr)) ∧
            ∃ (v : State) (y : Cx), exec (.flitDue n p fl wd) s = .next ((v.take w.core y).letIn p) ∧ v.cores = u.cores ∧ v.time = u.time ∧
              ⟨n, w.flow, old ++ x.data⟩ ∈ v.parts ∧
              (let off := w.base + 8 * k.ringPos w.endn + 8 * wd
               w.toRing = true → k.writeRefused (u.env w.core).step off x.data.length = none →
                ∃ i : Iss, ⟨at_, i, .scr off (x.data.take (144 - 8 * wd % 144))⟩ ∈ y.c.pend ∧
                  (x.data.drop (144 - 8 * wd % 144) ≠ [] →
                    ⟨at_ + 1, i, .scr (off + (144 - 8 * wd % 144)) (x.data.drop (144 - 8 * wd % 144))⟩ ∈ y.c.pend)) ∧
              (let q := k.me.comb.get .reset w.endn
               w.toRing = false → q.valid = true →
                ((old ++ x.data).length = 8 * (q.size + 1) → y.effs = [] ∧ y.c.me.staging = k.me.staging ++
                  [⟨w.endn, w.base, at_ - 8 * wd / 144 + cdiv (8 * (q.size + 1) + 8) 144, old ++ x.data⟩]) ∧
                  ((old ++ x.data).length < 8 * (q.size + 1) → y.effs = [] ∧ y.c = k))) ∧
      (takeFirst (fun t => t.station == p && t.prog == n && t.flow == fl && t.word == wd) s.timing = none →
        (∀ e ∈ s.inbox, (e.1 == p && Flit.flow e.2 == fl && Flit.wordNo e.2 == wd) = false) →
        exec (.flitDue n p fl wd) s = .next (s.setProg n { pr with stalls := [.link p fl wd] })) ∧
      (∀ f rest w, takeFirst (fun t => t.station == p && t.prog == n && t.flow == fl && t.word == wd) s.timing = none →
        takeFirst (fun e => e.1 == p && Flit.flow e.2 == fl && Flit.wordNo e.2 == wd) s.inbox = some ((p, f), rest) →
        (pr.slots.flows.find? fun y => y.station == p && y.flow == fl) = some w →
        let u := { s with inbox := rest }.owe (some (p, 2))
        exec (.flitDue n p fl wd) s = .next (u.releaseFlit n w wd (s.progCycle pr + (s.flitAhead pr f).toNat) (Flit.data f)) ∧
          (j.carries = true → ∃ g, u.out = s.out ++ [.flit p g]))) ∧
    (s.scheduledOver p = true → exec (.jiziaPortEnable p false) s = .next s) ∧
    (s.scheduledOver p = false →
      ∃ t : State, exec (.jiziaPortEnable p false) s = .next t ∧ t.val (0x1200 + p) 1 = 0 ∧
        (t.jport p).st = if j.st = 3 ∨ j.st = 4 ∨ j.st = 6 then 6 else if j.retrain = true then j.st else 7) ∧
    (j.st = 7 → ∃ t : State, exec (.jiziaPortEnable p true) s = .next t ∧ t.val (0x1200 + p) 1 = 1 ∧ (t.jport p).st = if s.portMay p then 1 else 0) ∧
    (j.st = 6 → ∃ t : State, exec (.jiziaPortDrainTimeout p) s = .next t ∧ t.jport p = { JPort.reset with st := s.jportStart p }) ∧
    (∀ c d l r, s.progs.entries ≠ [] ∨ placeOk c d l = false → exec (.chipId c d l r) s = .next s) ∧
    (∀ c d l r, s.progs.entries = [] → placeOk c d l = true →
      ∃ t : State, exec (.chipId c d l r) s = .next t ∧ t.chipId = c ∧ t.val 0x1010 2 = d ∧ t.val 0x1010 9 = b2n r ∧
        ∀ i, i < 6 → t.val 0x1010 (3 + i) = l.getD i 0)

/-- O55. Host queues and their transport (R382 to R385, R389, R391, R394, R519). A doorbell in order moves the index it names and is acknowledged, at once unless frames of its QP are held back; any other of a Ready queue puts it in Error, and a
queue that is not Ready takes none; room in the ring takes the oldest completion that waits, which is written to its place in the completion ring with the phase of that round; a queue becomes Ready with its indices at 0, drains
when it is disabled, and ends Off; an operation that is not acknowledged is sent again seven times, then the queue is in Error, as after a NAK or an atomic request; a CE mark is answered with a CNP where the port reacts. -/
def Obligations.HostQueues : Prop :=
  ∀ (s : State) (q : Nat), q < 4096 →
    let h := s.queue q
    let p := s.portOf q
    let leaves (u t : State) (o : Out) : Prop :=
      (u.sends q = true → t.out = u.out ++ [o] ∧ t.held = u.held) ∧ (u.sends q = false → t.out = u.out ∧ ∃ n, t.held = u.held ++ [(q, n, o)])
    (∀ o : HostSend, s.qpTakes q = true →
      let kind := ofOctets (o.octets.take 2)
      let idx := ofOctets ((o.octets.drop 4).take 4)
      let u := s.ceMark q o.ce
      (kind = 1 → h.tailOk (s.valAt 0x1180 9 q) idx = true → o.octets.length = 16 →
        ∃ t : State, exec (.submissionTail q o) s = .next t ∧ t.queue q = { h with tail := idx } ∧ leaves u t (.ack q) ∧
          t.exiting = (s.exiting || decide (0 < s.pst))) ∧
      (kind = 2 → h.headOk (s.valAt 0x1180 0xC q) idx = true → o.octets.length = 16 →
        ∃ t : State, exec (.completionHead q o) s = .next t ∧ t.queue q = { h with ccons := idx } ∧ leaves u t (.ack q)) ∧
      (((kind = 1 → h.tailOk (s.valAt 0x1180 9 q) idx = false) ∧ (kind = 2 → h.headOk (s.valAt 0x1180 0xC q) idx = false)) ∨ o.octets.length ≠ 16 →
        ∃ t : State, exec (.submissionTail q o) s = .next t ∧ exec (.completionHead q o) s = .next t ∧ (t.queue q).st = 2 ∧
          (t.queue q).begun = (t.queue q).tail)) ∧
    (∀ o : HostSend, s.qpTakes q = false →
      ∃ t : State, exec (.submissionTail q o) s = .next t ∧ exec (.completionHead q o) s = .next t ∧ t.queues = s.queues ∧ t.out = s.out) ∧
    (s.val (0x1100 + p) 9 = 1 → leaves s (s.ceMark q true) (.cnp q)) ∧
    (∀ c rest, h.waiting = c :: rest → s.ringRoom q = true →
      ∃ t : State, exec (.completionBacklog q) s = .next t ∧ (t.queue q).waiting = rest ∧ (t.queue q).cprod = (h.cprod + 1) % 2 ^ 32 ∧
        let n := max (s.valAt 0x1180 0xC q) 1
        leaves s t (.compl q (s.valAt 0x1180 0xA q + 32 * (h.cprod % n)) (s.valAt 0x1180 0xB q) (c.octets q (h.cprod / n % 2 == 0) h.overrun))) ∧
    (s.commits = true → s.queueOk q = false → exec (.queueEnable q true) s = .next s) ∧
    (s.commits = true → s.queueOk q = true → h.st = 0 ∨ h.st = 2 →
      ∃ t : State, exec (.queueEnable q true) s = .next t ∧ (t.queue q).st = 1 ∧ (t.queue q).tail = 0 ∧ (t.queue q).begun = 0 ∧ (t.queue q).ccons = 0 ∧
        (t.queue q).cprod = 0 ∧ (t.queue q).waiting = h.waiting ∧ t.valAt 0x1180 2 q = 1) ∧
    (s.commits = true → h.st = 1 ∨ h.st = 2 →
      ∃ t : State, exec (.queueEnable q false) s = .next t ∧ (t.queue q).st = 3 ∧ (t.queue q).begun = h.tail ∧ (t.queue q).active = h.active) ∧
    (s.powered = true → s.frozen = false → h.st = 3 →
      ∃ t : State, exec (.queueDrainTimeout q) s = .next t ∧ (t.queue q).st = if s.valAt 0x1180 2 q = 1 then 1 else 0) ∧
    (s.opsLive q = true → h.st = 1 → s.outstanding q = true →
      (h.retries < 7 → ∃ t : State, exec (.localAckTimeout q) s = .next t ∧ t.queue q = { h with retries := h.retries + 1 }) ∧
        (7 ≤ h.retries → ∃ t : State, exec (.localAckTimeout q) s = .next t ∧ (t.queue q).st = 2) ∧
        ((s.hport p).st = 2 ∨ (s.hport p).st = 3 →
          (∃ t : State, exec (.hostAckOrNak q false) s = .next t ∧ t.queue q = { h with unacked := h.unacked - 1, retries := 0 }) ∧
            ∃ t : State, exec (.hostAckOrNak q true) s = .next t ∧ (t.queue q).st = 2)) ∧
    (s.qpRuns q = true →
      (∃ t : State, exec (.atomicRequest q) s = .next t ∧ (t.queue q).st = 2 ∧ leaves s t (.nak q 1) ∧ t.mem = s.mem) ∧
        ∃ t : State, exec (.cnp q) s = .next t ∧ (t.queue q).slow = if s.val (0x1100 + p) 9 = 1 then h.slow + 1 else h.slow)

/-- O56. Host ports (R380, R381, R400, R484). PFC pauses a lossless priority for its time, and a time of 0 ends the pause; a lost link trains again, with what it held lost; a port is disabled by way of Draining, and its queues are in
Error at once (the model's choice); a port enabled again trains. The time of a pause is the model's presumption (log 150). -/
def Obligations.HostPorts : Prop :=
  ∀ (s : State) (p : Nat), p < 4 →
    let h := s.hport p
    (∀ pr : PfcNews, s.hostRuns p = true → h.st = 2 ∨ h.st = 3 →
      ∃ t : State, exec (.pfcFrame p pr) s = .next t ∧ (t.hport p).st = h.st ∧
        let lossless := pr.prio < 8 ∧ nbit (s.val (0x1100 + p) 8) pr.prio = true
        (lossless → (t.hport p).pauses pr.prio s.time = decide (0 < pr.quanta) ∧
          ∀ k, k ≠ pr.prio → ∀ n, (t.hport p).pauses k n = h.pauses k n) ∧
        (¬lossless → t.hport p = h)) ∧
    (s.powered = true → h.st = 2 → ∃ t : State, exec (.hostLinkLoss p) s = .next t ∧ t.hport p = ⟨1, []⟩ ∧ t.queues = s.queues ∧
      ∀ e ∈ t.held, e ∈ s.held ∧ s.portOf e.1 ≠ p) ∧
    (s.powered = true → h.st = 1 → exec (.hostPortTrained p) s = .next (s.setHport p { h with st := 2 }).freeHeld) ∧
    (s.commits = true → h.st ≤ 2 →
      ∃ t : State, exec (.hostPortEnable p false) s = .next t ∧ (t.hport p).st = 3 ∧
        ∀ q, q < 4096 → q ∈ s.enabledQueues → s.portOf q = p → (s.queue q).st = 1 → (t.queue q).st = 2) ∧
    (s.commits = true → h.st = 4 → ∃ t : State, exec (.hostPortEnable p true) s = .next t ∧ t.hport p = ⟨1, []⟩ ∧ t.val (0x1100 + p) 1 = 1) ∧
    (s.powered = true → s.frozen = false → h.st = 3 → s.moving.entries = [] → (∀ q ∈ s.enabledQueues, s.portOf q = p → (s.queue q).st ≠ 1) →
      exec (.hostPortDrainTimeout p) s = .next ((s.setHport p ⟨if s.val (0x1100 + p) 1 = 0 then 4 else 1, []⟩).dropHeld p))

/-- O57. Memory windows (R395 to R399, R451). A WINDOW is refused on a queue without admin or where its window may not lie; it is Active under a tag other than its last one; DESTROY drains it, and 2 ms later it is Off, its tag kept. An RDMA operation that its
window does not allow or cover is refused with a Remote Access Error, and its queue is in Error; a write within is acknowledged, a read answered, unless a word is poisoned; while no rest window of a near stack comes, one that goes
there has no effect yet. -/
def Obligations.Windows : Prop :=
  ∀ (s : State) (q : Nat),
    let leaves (u t : State) (o : Out) : Prop :=
      (u.sends q = true → t.out = u.out ++ [o] ∧ t.held = u.held) ∧ (u.sends q = false → t.out = u.out ∧ ∃ n, t.held = u.held ++ [(q, n, o)])
    (∀ e, s.Begins q e 7 → bit (e.word 1) 71 = false →
      let b := s.beginEntry e
      let i := bits (e.word 1) 9 0
      let w := e.win (b.newTag (b.win i).tag)
      (b.valAt 0x1180 5 q = 0 ∨ b.windowOk i w = false → e.q = q → exec (.window q) s = .next (b.answer e 9 none)) ∧
        (b.valAt 0x1180 5 q ≠ 0 → b.windowOk i w = true → e.q = q → (s.win i).tag < 2 ^ 22 →
          ∃ u : State, exec (.window q) s = .next (u.answer e 0 (some (i + 1024 * w.tag))) ∧ u.win i = w ∧ w.st = 1 ∧ w.tag ≠ (s.win i).tag ∧
            w.tag < 2 ^ 22 ∧ ∀ k, k ≠ i → u.win k = s.win k)) ∧
    (∀ e, s.Begins q e 7 → bit (e.word 1) 71 = true → e.q = q →
      let b := s.beginEntry e
      let i := bits (e.word 1) 9 0
      (b.valAt 0x1180 5 q = 0 ∨ (s.win i).st ≠ 1 → exec (.destroy q) s = .next (b.answer e 9 none)) ∧
        (b.valAt 0x1180 5 q ≠ 0 → (s.win i).st = 1 →
          ∃ t : State, exec (.destroy q) s = .next t ∧ t.win i = { s.win i with st := 2, destroy := some ⟨q, e.tag⟩ })) ∧
    (∀ i, i < 1024 → s.powered = true → s.frozen = false → (s.win i).st = 2 →
      ∃ t : State, exec (.windowDrainTimeout i) s = .next t ∧ t.win i = { Win.reset with tag := (s.win i).tag }) ∧
    (∀ va key o ce, q < 4096 → s.qpTakes q = true →
      let w := s.win (key % 1024)
      let v := s.ceMark q ce
      let r := (s.rxFrames (s.portOf q) (s.framesOf (s.portOf q) o.length)).ceMark q ce
      (w.allows q key true = false ∨ w.covers va o.length = false →
        ∀ f, ∃ t : State, exec (.rdmaWrite q va key ⟨o, f, ce⟩) s = .next t ∧ leaves v t (.nak q 2) ∧ (t.queue q).st = 2 ∧ t.mem = s.mem ∧ t.cores = s.cores) ∧
      (∀ f, w.allows q key true = true → w.covers va o.length = true → s.counts = false ∨ s.nearWaits (w.base + convNts w.conv va) = true →
        exec (.rdmaWrite q va key ⟨o, f, ce⟩) s = .next s) ∧
      (∀ f u ok, w.allows q key true = true → w.covers va o.length = true → s.counts = true → s.nearWaits (w.base + convNts w.conv va) = false →
        r.writePackets w.conv f (w.base + convNts w.conv va)
          (packetsOf (convUnit w.conv) (r.mtuOf q) (o.length / r.mtuOf q + 1) 0 0 o) = (u, ok) →
        exec (.rdmaWrite q va key ⟨o, f, ce⟩) s = .next (if ok then u.sendHost q 16 (.ack q) else u.nakQp q 2))) ∧
    (∀ va key n ce, q < 4096 → s.qpTakes q = true →
      let w := s.win (key % 1024)
      let v := s.ceMark q ce
      let r := (s.rxFrames (s.portOf q) 1).ceMark q ce
      (∀ f, w.allows q key false = false ∨ w.covers va n = false →
        ∃ t : State, exec (.rdmaRead q va key ⟨n, f, ce⟩) s = .next t ∧ leaves v t (.nak q 2) ∧ (t.queue q).st = 2 ∧ t.mem = s.mem) ∧
      (∀ f, w.allows q key false = true → w.covers va n = true → s.counts = false ∨ s.nearWaits (w.base + convNts w.conv va) = true →
        exec (.rdmaRead q va key ⟨n, f, ce⟩) s = .next s) ∧
      (∀ f u d, w.allows q key false = true → w.covers va n = true → s.counts = true → s.nearWaits (w.base + convNts w.conv va) = false →
        r.hostRead f (w.base + convNts w.conv va) (convNts w.conv n) = some (u, d) →
        (anyPoison d = true →
          ∃ t : State, exec (.rdmaRead q va key ⟨n, f, ce⟩) s = .next t ∧ (t.queue q).st ≠ 1 ∧ leaves u t (.nak q 3) ∧ t.mem = u.mem ∧ t.cores = u.cores) ∧
        (anyPoison d = false →
          ∃ t : State, exec (.rdmaRead q va key ⟨n, f, ce⟩) s = .next t ∧ leaves u t (.readResp q (toHost w.conv d)) ∧ t.mem = u.mem ∧ t.cores = u.cores ∧
            (t.win (key % 1024)).lost = ((u.win (key % 1024)).lost || (w.conv == 2 && d.any fun x => decide (256 ≤ x.v.toNat))))))

/-! ### Irair, the dictionary and the management controllers -/

/-- O58. Irair over the management segment (R503 to R518). A request of an open session that is rightly tagged and in sequence is executed and answered once, under the session's key: READ gives the items' values, WRITE all of its items or none,
DESCRIBE and NEXT an entry, BEGIN opens the only transaction, COMMIT and ROLLBACK close it, CLOSE the session. A repeated request is answered again, and a wrong tag or sequence number dropped. Without a session
HELLO makes a pending one, and a whole AUTH message opens it where its signature and key hold, and else ends it. Time limits end partial messages, pending and idle sessions and the transaction. -/
def Obligations.IrairRequests : Prop :=
  ∀ (s : State) (f : Sys2Proof.Frame),
    let id := f.session
    (∀ i (c : Sys2Proof.Frame → Instr) op, (c, op) ∈ [(Instr.read, 1), (.write, 2), (.describe, 3), (.next, 4), (.hello, 16), (.auth, 17), (.close, 18),
        (.begin, 32), (.commit, 33), (.rollback, 34)] → s.Hears f → s.irSess id = some i →
      (tagOk f op i.key = false → exec (c f) s = .next s.dropFrame) ∧
        (tagOk f op i.key = true → i.lastSeq ≠ 0 → f.seq = i.lastSeq → f.reqId = i.lastReq → exec (c f) s = .next (s.sendFrames f.ep i.lastResp)) ∧
        (tagOk f op i.key = true → (f.seq ≠ i.lastSeq ∨ f.reqId ≠ i.lastReq) → f.seq ≠ (i.lastSeq + 1) % 2 ^ 32 →
          exec (c f) s = .next s.dropFrame)) ∧
    (∀ i,
      let u := s.asked id i f
      let tells (op st : Nat) (p : List (BitVec 8)) (t : State) : Prop := .frame f.ep (respond f op st p (some i.key)) ∈ t.out
      (s.Asks 1 i f →
        ∃ t : State, exec (.read f) s = .next t ∧ t.dict = s.dict ∧ t.txn = s.txn ∧
          (itemsOf true f.payload = none → tells 1 stMalformed [] t) ∧
          ∀ l, itemsOf true f.payload = some l →
            let r := toOctets 1 l.length ++ u.readItems (nbit f.flags 1) (u.viewOf id) l
            if r.length ≤ 1196 then tells 1 0 r t else tells 1 stMalformed [] t) ∧
      (s.Asks 2 i f → i.late = false →
        ∃ t : State, exec (.write f) s = .next t ∧
          (itemsOf false f.payload = none → tells 2 stMalformed [] t ∧ t.dict = s.dict) ∧
          ∀ l, itemsOf false f.payload = some l →
            (t.dict = (u.writeItems id l).1.dict ∧ t.txn = (u.writeItems id l).1.txn) ∧
              tells 2 (u.writeItems id l).2.1 (if (u.writeItems id l).2.1 = 0 then [] else nameOctets (u.writeItems id l).2.2) t) ∧
      (s.Asks 3 i f → f.payload.length = 3 →
        let idx := ofOctets (f.payload.take 2)
        let sub := ofOctets (f.payload.drop 2)
        ∃ t : State, exec (.describe f) s = .next t ∧ t.dict = s.dict ∧
          (∀ r, odRow idx sub = some r →
            tells 3 0 (Config.describe (ascii r.typ.text) (ascii r.acc.text) (ascii r.cls.text) (odDefault s.fuse idx sub) (ascii r.name)) t) ∧
          (s.describe idx sub = none → tells 3 stNoEntry [] t)) ∧
      (∀ n, s.Asks 4 i f → f.payload.length = 3 → nextEntryOf (ofOctets (f.payload.take 2) * 256 + ofOctets (f.payload.drop 2)) = some n →
        ∃ t : State, exec (.next f) s = .next t ∧ t.dict = s.dict ∧ tells 4 0 (toOctets 2 (n / 256) ++ toOctets 1 (n % 256)) t) ∧
      (s.Asks 18 i f → f.payload = [] →
        ∃ t : State, exec (.close f) s = .next t ∧ t.irSess id = none ∧ tells 18 0 [] t ∧
          t.txn = if s.ownsTxn id then none else s.txn) ∧
      (s.Asks 32 i f → f.payload = [] →
        (s.txn = none → ∃ t : State, exec (.begin f) s = .next t ∧ t.txn = some ⟨id, s.time, []⟩ ∧ tells 32 0 [] t) ∧
          (∀ x, s.txn = some x → ∃ t : State, exec (.begin f) s = .next t ∧ t.txn = some x ∧ tells 32 stBusy [] t)) ∧
      (s.Asks 33 i f → f.payload = [] → i.late = false →
        (s.txn = none → ∃ t : State, exec (.commit f) s = .next t ∧ tells 33 stNoTxn [] t ∧ t.dict = s.dict) ∧
          (∀ x, s.txn = some x → x.owner = id →
            let r := u.commitTxn id true x.items
            ∃ t : State, exec (.commit f) s = .next t ∧ t.txn = none ∧ tells 33 r.2.1 (if r.2.1 = 0 then [] else nameOctets r.2.2.1) t ∧
              (r.2.2.2 = 0 → t.dict = r.1.dict))) ∧
      (s.Asks 34 i f → f.payload = [] → i.late = false →
        ∀ x, s.txn = some x →
          ∃ t : State, exec (.rollback f) s = .next t ∧ t.dict = s.dict ∧
            (x.owner = id → t.txn = none ∧ tells 34 0 [] t) ∧ (x.owner ≠ id → t.txn = some x ∧ tells 34 stBusy [] t))) ∧
    (∀ u, s.Hears f → id = 0 → s.irSess 0 = none → s.irPend 0 = none → s.unauth = some u → f.payload.length = 66 →
      nbit (ofOctets (f.payload.take 2)) 0 = true → s.irp.entries.length < 4 → s.irs.entries.length + s.irp.entries.length < 8 →
      ∃ (t : State) (p : IrPend), exec (.hello f) s = .next t ∧ t.irPend u.newSession = some p ∧ p.since = s.time ∧ p.hello = f.payload ∧
        p.nd = Config.nonce s.serial % 2 ^ 256 ∧ p.frags = [] ∧ t.irs = s.irs) ∧
    (∀ u p, s.Hears f → s.irSess id = none → s.irPend id = some p → s.unauth = some u →
      p.frags = [] ∨ p.reqId = f.reqId →
      let l := (p.frags.filter fun e => e.frag != f.frag) ++ [⟨f.frag, nbit f.flags 2, f.payload⟩]
      let bad : Prop := ∃ t : State, exec (.auth f) s = .next t ∧ t.irPend id = some { p with frags := [] } ∧ t.irs = s.irs ∧
        .frame f.ep (respond f 17 stMalformed [] none) ∈ t.out
      (authFits l = false → bad) ∧
        (authFits l = true → authMessage l = none →
          ∃ t : State, exec (.auth f) s = .next t ∧ t.out = s.out ∧
            t.irPend id = some { p with frags := l, reqId := f.reqId, fragAt := if p.frags = [] then s.time else p.fragAt }) ∧
        (∀ msg, authFits l = true → authMessage l = some msg →
          (msg.length ≠ 3508 → bad) ∧
            (msg.length = 3508 →
              ∃ t : State, exec (.auth f) s = .next t ∧ t.irPend id = none ∧
                (∀ key, p.openKey id msg = some key → s.roleOf true p.keyId ≠ 0 →
                  ∃ i, t.irSess id = some i ∧ i.role = s.roleOf true p.keyId ∧ i.key = key ∧ i.lastSeq = 0 ∧
                    .frame f.ep (respond f 17 0 [] (some key)) ∈ t.out) ∧
                (p.openKey id msg = none → t.irs = s.irs ∧ .frame f.ep (respond f 17 stAuth [] none) ∈ t.out)))) ∧
    (∀ p, s.irPend id = some p → p.frags ≠ [] → p.fragAt + 1000000000 < 2 ^ 64 →
      ∃ t : State, exec (.authFragmentTimeout id) s = .next t ∧ t.irPend id = some { p with frags := [] } ∧
        (s.slew = 0 → p.fragAt + 1000000000 ≤ t.time)) ∧
    (∀ p, s.irPend id = some p → p.since + 5000000000 < 2 ^ 64 →
      ∃ t : State, exec (.pendingSessionExpiry id) s = .next t ∧ t.irPend id = none ∧ (s.slew = 0 → p.since + 5000000000 ≤ t.time)) ∧
    (∀ i, s.irSess id = some i → i.since + s.val 0x1020 3 * 1000000000 < 2 ^ 64 →
      ∃ t : State, exec (.sessionIdleTimeout id) s = .next t ∧ t.irSess id = none ∧ (s.slew = 0 → i.since + s.val 0x1020 3 * 1000000000 ≤ t.time) ∧
        (s.ownsTxn id = true → t.txn = none)) ∧
    (∀ x, s.txn = some x → x.since + 10000000000 < 2 ^ 64 →
      ∃ t : State, exec .transactionTimeout s = .next t ∧ t.txn = none ∧ t.val 0xF000 5 = stTimeout ∧
        (s.slew = 0 → x.since + 10000000000 ≤ t.time))

/-- O59. Writes of the dictionary and of control blocks, and the operations of firmware and attestation (R51, R422, R467, R499, R531, R539, R543 to R547). A session's write has the effect of a WRITE of one item; status bits clear where a 1 is written; other registers of a
core whose program runs do not change. A node takes its ID and raises CHAIN_OUT; a record is acknowledged; the update takes 1,024 octets at a time; the fused counter takes the running SVN; a key slot that no
running Clover uses is revoked; a report is formed for a nonce; and none of them happens for a session without the right. -/
def Obligations.Management : Prop :=
  ∀ s : State, s.managed = true →
    (∀ id idx sub v r, odRow idx sub = some r → v < 256 ^ r.octets →
      exec (.registerWrite (.entry id idx sub) v) s = .next (s.writeItems id [⟨idx, sub, toOctets r.octets v⟩]).1) ∧
    (∀ c, c < 144 → c ∉ s.fuse.absent → s.pst ≤ 1 → s.powered = true →
      (∃ t : State, exec (.registerWrite (.control c 0) (2 ^ 17)) s = .next t ∧
        t.core c = { s.core c with st := { (s.core c).st with slip := false } }) ∧
      ∀ off v, v < 2 ^ 72 → (s.core c).hostSticky off (BitVec.ofNat 72 v) = none →
        ((s.core c).prog = none →
          exec (.registerWrite (.control c off) v) s = .next (s.setCore c ((s.core c).hostSet off (BitVec.ofNat 72 v)))) ∧
        (∀ n p, (s.core c).prog = some n → s.prog n = some p → p.running = true →
          exec (.registerWrite (.control c off) v) s = .next { s with out := s.out ++ [.regBusy c off] })) ∧
    (∀ id n, s.operatorOf id = true → 1 ≤ n → n ≤ 16 → s.txn = none →
      ∃ t : State, exec (.nodeId id n) s = .next t ∧ t.val 0x1000 1 = n ∧ t.pins.chainOut = true) ∧
    (∀ m, m = 1 ∨ (m = 0 ∧ s.lockedRefused = false) → ∃ t : State, exec (.mode m) s = .next t ∧ t.val 0x6000 1 = m) ∧
    (∀ n, exec (.alertAck n) s = .next { s with acked := max s.acked (n + 1) }) ∧
    (∀ id, s.ownerOf id = true →
      (∀ l, l.length = 1024 → s.val 0x8000 8 + 1024 ≤ slotSize → s.val 0x8000 8 % 1024 = 0 → s.slotRuns s.otherSlot = false →
        ∃ t : State, exec (.updateData id l) s = .next t ∧ t.val 0x8000 8 = s.val 0x8000 8 + 1024 ∧ t.val 0x8000 0xA = 1 ∧
          ∀ k, k < 1024 → t.flashAt (slotBase s.otherSlot + s.val 0x8000 8 + k) = l.getD k 0) ∧
      (∃ t : State, exec (.updateCheck id) s = .next t ∧ t.val 0x8000 0xA = if s.slotValid s.otherSlot then 2 else 3) ∧
      (∃ t : State, exec (.restartStandby id) s = .next t ∧ (t.ctrl (!s.offLeads)).state = 3 ∧ (t.ctrl (!s.offLeads)).bit = false ∧
        (t.ctrl s.offLeads).misses = 0) ∧
      ((s.ctrl (!s.offLeads)).state = 1 → s.tokenOk = true → s.mayClaim (!s.offLeads) = true →
        ∃ t : State, exec (.handover id) s = .next t ∧ t.offLeads = !s.offLeads ∧ t.managed = true ∧ (t.ctrl s.offLeads).state = 0 ∧
          t.irSess id = none ∧ t.txn = none) ∧
      (s.near.state = 1 → s.off.state = 1 → s.near.svn = s.off.svn →
        ∃ t : State, exec (.commitSvn id) s = .next t ∧ t.fuse.svn = max s.fuse.svn (s.ctrl s.offLeads).svn) ∧
      (∀ k, s.revokeStatus k = stOk → ∃ t : State, exec (.revokeSlot id k) s = .next t ∧ nbit t.fuse.revoked k = true) ∧
      (∀ k, 4 ≤ k → exec (.revokeSlot id k) s = .next s)) ∧
    (∀ id, s.ownerOf id = false →
      (∀ l, exec (.updateData id l) s = .next s) ∧ exec (.updateCheck id) s = .next s ∧ exec (.restartStandby id) s = .next s ∧
        exec (.handover id) s = .next s ∧ exec (.commitSvn id) s = .next s ∧ ∀ k, exec (.revokeSlot id k) s = .next s) ∧
    (∀ id i l, s.irSess id = some i → 1 ≤ i.role → l.length = 32 →
      ∃ (t : State) (j : IrSess), exec (.nonce id l) s = .next t ∧ t.irSess id = some j ∧ j.nonce = ofOctets l ∧ j.report = s.report l ∧ j.role = i.role)

/-- O60. The controllers, primacy and the pins (R530, R534 to R539, R542, R571, R573). A controller that boots runs the better valid slot, or has failed where there is none; two seconds without a primary let a running one claim; each heartbeat moves on,
and three misses let the standby take over, but for one that strap does not name in the first two seconds, or the primary restart it; of two token bits the near one stays. The test port shifts the part's IDCODE out, a bypass bit otherwise, and drives nothing while
RESET_N is high. -/
def Obligations.Controllers : Prop :=
  ∀ s : State,
    (∀ off, s.pins.held &&& 8 = 0 → (s.ctrl off).state = 0 ∨ (s.ctrl off).state = 3 →
      ∃ t : State, exec (.yarrowBoot off) s = .next t ∧
        (s.slew = 0 → (s.ctrl off).heldTo < 2 ^ 64 → (s.ctrl off).heldTo ≤ t.time) ∧
        (s.pickSlot = none → (t.ctrl off).state = 2 ∧ (t.ctrl off).bit = (s.ctrl off).bit) ∧
        ∀ k, s.pickSlot = some k → (t.ctrl off).state = 1 ∧ (t.ctrl off).slot = k ∧ (t.ctrl off).svn = s.flashNum (slotBase k + 12) 1) ∧
    (∀ off, s.pins.held &&& 8 = 0 → (s.ctrl off).state = 1 → s.primary = 2 → s.slew = 0 →
      ∃ t : State, exec (.primacyClaim off) s = .next t ∧ (t.ctrl off).bit = true ∧ (t.ctrl (!off)).bit = false ∧ 2000000000 ≤ t.time ∧
        t.val 0x1000 4 = b2n off) ∧
    (s.pins.held &&& 8 = 0 → s.primary = 2 →
      ∃ t : State, exec .noPrimary s = .next t ∧ t.noPrimary = true ∧ t.alert = true ∧ (s.slew = 0 → 2000000000 ≤ t.time)) ∧
    (s.pins.held &&& 8 = 0 → s.near.state = 1 → s.off.state = 1 →
      (∃ t : State, exec (.heartbeat true true) s = .next t ∧ t.near.beat = s.near.beat + 1 ∧ t.near.misses = 0 ∧ t.off.beat = s.off.beat + 1 ∧
        t.off.misses = 0 ∧ t.beatMs = max (s.time / 1000000) (s.beatMs + 1) ∧ (s.slew = 0 → 1000000 * t.beatMs < 2 ^ 64 → 1000000 * t.beatMs ≤ t.time)) ∧
      (∃ t : State, exec (.heartbeat true false) s = .next t ∧ t.near.misses = s.near.misses + 1 ∧ t.off = { s.off with mute := s.off.mute + 1 }) ∧
      ∃ t : State, exec (.heartbeat false true) s = .next t ∧ t.off.misses = s.off.misses + 1 ∧ t.near = { s.near with mute := s.near.mute + 1 }) ∧
    (s.primaryLost = true → s.tokenOk = true → s.mayClaim (!s.offLeads) = false → ∃ t : State, exec .takeover s = .next t ∧ t.primary = 2) ∧
    (s.primaryLost = true → s.tokenOk = true → s.mayClaim (!s.offLeads) = true →
      ∃ t : State, exec .takeover s = .next t ∧ t.offLeads = !s.offLeads ∧ t.managed = true ∧ (t.ctrl s.offLeads).state = 3 ∧ (∀ n, t.irSess n = none) ∧
        (s.powered = true → s.FreshCores t)) ∧
    (s.primaryLost = false → exec .takeover s = .next s) ∧
    (s.standbyLost = true →
      ∃ t : State, exec .standbyRestart s = .next t ∧ (t.ctrl (!s.offLeads)).state = 3 ∧ (t.ctrl s.offLeads).misses = 0 ∧ t.offLeads = s.offLeads) ∧
    (s.standbyLost = false → exec .standbyRestart s = .next s) ∧
    (s.managed = true → ∃ t : State, exec (.tokenConflict true) s = .next t ∧ t.near.bit = true ∧ t.off.bit = false ∧ t.off.state = 3) ∧
    (∀ high, exec (.chainIn high) s = .next { s with pins := { s.pins with chainIn := high } }) ∧
    (∀ l, s.pins.held &&& 8 = 0 →
      (∃ t : State, exec (.tapOperation .idcode l) s = .next t ∧ t.pins.tap = .idcode ∧ t.pins.driven = none ∧
        t.out = s.out ++ [.tdo ((lowBits 32 s.fuse.idcode ++ l).take l.length)]) ∧
      (∃ t : State, exec (.tapOperation .bypass l) s = .next t ∧ t.out = s.out ++ [.tdo ((false :: l).take l.length)] ∧ t.pins.driven = none) ∧
      (s.pins.resetN = true → ∃ t : State, exec (.tapOperation .extest l) s = .next t ∧ t.pins.driven = none ∧
        t.out = s.out ++ [.tdo ((false :: l).take l.length)]) ∧
      (s.pins.resetN = false → ∃ t : State, exec (.tapOperation .highz l) s = .next t ∧ t.pins.driven = some []) ∧
      ∀ i, i ∈ [Sys2Proof.TapInstr.clamp, .other, .samplePreload] → ∃ t : State, exec (.tapOperation i l) s = .next t ∧ t.pins.tap = i)
end

