-- ==== Sys2Proof/Laws/State.lean ====
section
/-! SUPPORT. The fields of the state after each basic update: one lemma per update, a clause per field it leaves alone, and one for the field
it sets. -/

namespace Sys2Proof.Machine

@[simp] theorem State.setAt_fields (s : State) (idx sub sel v : Nat) :
    (s.setAt idx sub sel v).pending = s.pending ∧ (s.setAt idx sub sel v).fuse = s.fuse ∧ (s.setAt idx sub sel v).time = s.time ∧
    (s.setAt idx sub sel v).half = s.half ∧ (s.setAt idx sub sel v).slew = s.slew ∧ (s.setAt idx sub sel v).slewNs = s.slewNs ∧
    (s.setAt idx sub sel v).cyc = s.cyc ∧ (s.setAt idx sub sel v).frame = s.frame ∧ (s.setAt idx sub sel v).cores = s.cores ∧
    (s.setAt idx sub sel v).mem = s.mem ∧ (s.setAt idx sub sel v).latent = s.latent ∧ (s.setAt idx sub sel v).progs = s.progs ∧
    (s.setAt idx sub sel v).jports = s.jports ∧ (s.setAt idx sub sel v).timing = s.timing ∧ (s.setAt idx sub sel v).inbox = s.inbox ∧
    (s.setAt idx sub sel v).beacons = s.beacons ∧ (s.setAt idx sub sel v).light = s.light ∧ (s.setAt idx sub sel v).parts = s.parts ∧
    (s.setAt idx sub sel v).rest = s.rest ∧ (s.setAt idx sub sel v).spans = s.spans ∧ (s.setAt idx sub sel v).scrubbed = s.scrubbed ∧
    (s.setAt idx sub sel v).hports = s.hports ∧ (s.setAt idx sub sel v).held = s.held ∧ (s.setAt idx sub sel v).queues = s.queues ∧
    (s.setAt idx sub sel v).wins = s.wins ∧ (s.setAt idx sub sel v).ready = s.ready ∧ (s.setAt idx sub sel v).adapters = s.adapters ∧
    (s.setAt idx sub sel v).cmds = s.cmds ∧ (s.setAt idx sub sel v).draining = s.draining ∧ (s.setAt idx sub sel v).moving = s.moving ∧
    (s.setAt idx sub sel v).readWait = s.readWait ∧ (s.setAt idx sub sel v).dropped = s.dropped ∧ (s.setAt idx sub sel v).irs = s.irs ∧
    (s.setAt idx sub sel v).irp = s.irp ∧ (s.setAt idx sub sel v).txn = s.txn ∧ (s.setAt idx sub sel v).unauthSec = s.unauthSec ∧
    (s.setAt idx sub sel v).unauthN = s.unauthN ∧ (s.setAt idx sub sel v).events = s.events ∧ (s.setAt idx sub sel v).acked = s.acked ∧
    (s.setAt idx sub sel v).rate = s.rate ∧ (s.setAt idx sub sel v).noPrimary = s.noPrimary ∧ (s.setAt idx sub sel v).near = s.near ∧
    (s.setAt idx sub sel v).off = s.off ∧ (s.setAt idx sub sel v).beatMs = s.beatMs ∧ (s.setAt idx sub sel v).flash = s.flash ∧
    (s.setAt idx sub sel v).frz = s.frz ∧ (s.setAt idx sub sel v).fired = s.fired ∧ (s.setAt idx sub sel v).pst = s.pst ∧
    (s.setAt idx sub sel v).exiting = s.exiting ∧ (s.setAt idx sub sel v).zeroed = s.zeroed ∧ (s.setAt idx sub sel v).clocks = s.clocks ∧
    (s.setAt idx sub sel v).nearSt = s.nearSt ∧ (s.setAt idx sub sel v).farSt = s.farSt ∧ (s.setAt idx sub sel v).pins = s.pins ∧
    (s.setAt idx sub sel v).deficit = s.deficit ∧ (s.setAt idx sub sel v).lastStretch = s.lastStretch ∧ (s.setAt idx sub sel v).strWin = s.strWin ∧
    (s.setAt idx sub sel v).limiter = s.limiter ∧ (s.setAt idx sub sel v).limFull = s.limFull ∧ (s.setAt idx sub sel v).furlong = s.furlong ∧
    (s.setAt idx sub sel v).furlongNo = s.furlongNo ∧ (s.setAt idx sub sel v).forcedTo = s.forcedTo ∧ (s.setAt idx sub sel v).limForce = s.limForce ∧
    (s.setAt idx sub sel v).moves = s.moves ∧ (s.setAt idx sub sel v).calibrated = s.calibrated ∧ (s.setAt idx sub sel v).badCross = s.badCross ∧
    (s.setAt idx sub sel v).vet = s.vet ∧ (s.setAt idx sub sel v).recd = s.recd ∧ (s.setAt idx sub sel v).serial = s.serial ∧
    (s.setAt idx sub sel v).out = s.out := by
  simp [State.setAt]

@[simp] theorem State.setCore_fields (s : State) (c : Nat) (k : Core) :
    (s.setCore c k).pending = s.pending ∧ (s.setCore c k).fuse = s.fuse ∧ (s.setCore c k).time = s.time ∧ (s.setCore c k).half = s.half ∧
    (s.setCore c k).slew = s.slew ∧ (s.setCore c k).slewNs = s.slewNs ∧ (s.setCore c k).cyc = s.cyc ∧ (s.setCore c k).frame = s.frame ∧
    (s.setCore c k).mem = s.mem ∧ (s.setCore c k).latent = s.latent ∧ (s.setCore c k).progs = s.progs ∧ (s.setCore c k).dict = s.dict ∧
    (s.setCore c k).jports = s.jports ∧ (s.setCore c k).timing = s.timing ∧ (s.setCore c k).inbox = s.inbox ∧ (s.setCore c k).beacons = s.beacons ∧
    (s.setCore c k).light = s.light ∧ (s.setCore c k).parts = s.parts ∧ (s.setCore c k).rest = s.rest ∧ (s.setCore c k).spans = s.spans ∧
    (s.setCore c k).scrubbed = s.scrubbed ∧ (s.setCore c k).hports = s.hports ∧ (s.setCore c k).held = s.held ∧ (s.setCore c k).queues = s.queues ∧
    (s.setCore c k).wins = s.wins ∧ (s.setCore c k).ready = s.ready ∧ (s.setCore c k).adapters = s.adapters ∧ (s.setCore c k).cmds = s.cmds ∧
    (s.setCore c k).draining = s.draining ∧ (s.setCore c k).moving = s.moving ∧ (s.setCore c k).readWait = s.readWait ∧
    (s.setCore c k).dropped = s.dropped ∧ (s.setCore c k).irs = s.irs ∧ (s.setCore c k).irp = s.irp ∧ (s.setCore c k).txn = s.txn ∧
    (s.setCore c k).unauthSec = s.unauthSec ∧ (s.setCore c k).unauthN = s.unauthN ∧ (s.setCore c k).events = s.events ∧
    (s.setCore c k).acked = s.acked ∧ (s.setCore c k).rate = s.rate ∧ (s.setCore c k).noPrimary = s.noPrimary ∧ (s.setCore c k).near = s.near ∧
    (s.setCore c k).off = s.off ∧ (s.setCore c k).beatMs = s.beatMs ∧ (s.setCore c k).flash = s.flash ∧ (s.setCore c k).frz = s.frz ∧
    (s.setCore c k).fired = s.fired ∧ (s.setCore c k).pst = s.pst ∧ (s.setCore c k).exiting = s.exiting ∧ (s.setCore c k).zeroed = s.zeroed ∧
    (s.setCore c k).clocks = s.clocks ∧ (s.setCore c k).nearSt = s.nearSt ∧ (s.setCore c k).farSt = s.farSt ∧ (s.setCore c k).pins = s.pins ∧
    (s.setCore c k).deficit = s.deficit ∧ (s.setCore c k).lastStretch = s.lastStretch ∧ (s.setCore c k).strWin = s.strWin ∧
    (s.setCore c k).limiter = s.limiter ∧ (s.setCore c k).limFull = s.limFull ∧ (s.setCore c k).furlong = s.furlong ∧
    (s.setCore c k).furlongNo = s.furlongNo ∧ (s.setCore c k).forcedTo = s.forcedTo ∧ (s.setCore c k).limForce = s.limForce ∧
    (s.setCore c k).moves = s.moves ∧ (s.setCore c k).calibrated = s.calibrated ∧ (s.setCore c k).badCross = s.badCross ∧
    (s.setCore c k).vet = s.vet ∧ (s.setCore c k).recd = s.recd ∧ (s.setCore c k).serial = s.serial ∧ (s.setCore c k).out = s.out := by
  simp [State.setCore]

@[simp] theorem State.setProg_fields (s : State) (n : Nat) (p : Prog) :
    (s.setProg n p).pending = s.pending ∧ (s.setProg n p).fuse = s.fuse ∧ (s.setProg n p).time = s.time ∧ (s.setProg n p).half = s.half ∧
    (s.setProg n p).slew = s.slew ∧ (s.setProg n p).slewNs = s.slewNs ∧ (s.setProg n p).cyc = s.cyc ∧ (s.setProg n p).frame = s.frame ∧
    (s.setProg n p).cores = s.cores ∧ (s.setProg n p).mem = s.mem ∧ (s.setProg n p).latent = s.latent ∧ (s.setProg n p).dict = s.dict ∧
    (s.setProg n p).jports = s.jports ∧ (s.setProg n p).timing = s.timing ∧ (s.setProg n p).inbox = s.inbox ∧ (s.setProg n p).beacons = s.beacons ∧
    (s.setProg n p).light = s.light ∧ (s.setProg n p).parts = s.parts ∧ (s.setProg n p).rest = s.rest ∧ (s.setProg n p).spans = s.spans ∧
    (s.setProg n p).scrubbed = s.scrubbed ∧ (s.setProg n p).hports = s.hports ∧ (s.setProg n p).held = s.held ∧ (s.setProg n p).queues = s.queues ∧
    (s.setProg n p).wins = s.wins ∧ (s.setProg n p).ready = s.ready ∧ (s.setProg n p).adapters = s.adapters ∧ (s.setProg n p).cmds = s.cmds ∧
    (s.setProg n p).draining = s.draining ∧ (s.setProg n p).moving = s.moving ∧ (s.setProg n p).readWait = s.readWait ∧
    (s.setProg n p).dropped = s.dropped ∧ (s.setProg n p).irs = s.irs ∧ (s.setProg n p).irp = s.irp ∧ (s.setProg n p).txn = s.txn ∧
    (s.setProg n p).unauthSec = s.unauthSec ∧ (s.setProg n p).unauthN = s.unauthN ∧ (s.setProg n p).events = s.events ∧
    (s.setProg n p).acked = s.acked ∧ (s.setProg n p).rate = s.rate ∧ (s.setProg n p).noPrimary = s.noPrimary ∧ (s.setProg n p).near = s.near ∧
    (s.setProg n p).off = s.off ∧ (s.setProg n p).beatMs = s.beatMs ∧ (s.setProg n p).flash = s.flash ∧ (s.setProg n p).frz = s.frz ∧
    (s.setProg n p).fired = s.fired ∧ (s.setProg n p).pst = s.pst ∧ (s.setProg n p).exiting = s.exiting ∧ (s.setProg n p).zeroed = s.zeroed ∧
    (s.setProg n p).clocks = s.clocks ∧ (s.setProg n p).nearSt = s.nearSt ∧ (s.setProg n p).farSt = s.farSt ∧ (s.setProg n p).pins = s.pins ∧
    (s.setProg n p).deficit = s.deficit ∧ (s.setProg n p).lastStretch = s.lastStretch ∧ (s.setProg n p).strWin = s.strWin ∧
    (s.setProg n p).limiter = s.limiter ∧ (s.setProg n p).limFull = s.limFull ∧ (s.setProg n p).furlong = s.furlong ∧
    (s.setProg n p).furlongNo = s.furlongNo ∧ (s.setProg n p).forcedTo = s.forcedTo ∧ (s.setProg n p).limForce = s.limForce ∧
    (s.setProg n p).moves = s.moves ∧ (s.setProg n p).calibrated = s.calibrated ∧ (s.setProg n p).badCross = s.badCross ∧
    (s.setProg n p).vet = s.vet ∧ (s.setProg n p).recd = s.recd ∧ (s.setProg n p).serial = s.serial ∧ (s.setProg n p).out = s.out := by
  simp [State.setProg]

@[simp] theorem State.setJport_fields (s : State) (p : Nat) (j : JPort) :
    (s.setJport p j).pending = s.pending ∧ (s.setJport p j).fuse = s.fuse ∧ (s.setJport p j).time = s.time ∧ (s.setJport p j).half = s.half ∧
    (s.setJport p j).slew = s.slew ∧ (s.setJport p j).slewNs = s.slewNs ∧ (s.setJport p j).cyc = s.cyc ∧ (s.setJport p j).frame = s.frame ∧
    (s.setJport p j).cores = s.cores ∧ (s.setJport p j).mem = s.mem ∧ (s.setJport p j).latent = s.latent ∧ (s.setJport p j).progs = s.progs ∧
    (s.setJport p j).dict = s.dict ∧ (s.setJport p j).timing = s.timing ∧ (s.setJport p j).inbox = s.inbox ∧ (s.setJport p j).beacons = s.beacons ∧
    (s.setJport p j).light = s.light ∧ (s.setJport p j).parts = s.parts ∧ (s.setJport p j).rest = s.rest ∧ (s.setJport p j).spans = s.spans ∧
    (s.setJport p j).scrubbed = s.scrubbed ∧ (s.setJport p j).hports = s.hports ∧ (s.setJport p j).held = s.held ∧
    (s.setJport p j).queues = s.queues ∧ (s.setJport p j).wins = s.wins ∧ (s.setJport p j).ready = s.ready ∧ (s.setJport p j).adapters = s.adapters ∧
    (s.setJport p j).cmds = s.cmds ∧ (s.setJport p j).draining = s.draining ∧ (s.setJport p j).moving = s.moving ∧
    (s.setJport p j).readWait = s.readWait ∧ (s.setJport p j).dropped = s.dropped ∧ (s.setJport p j).irs = s.irs ∧ (s.setJport p j).irp = s.irp ∧
    (s.setJport p j).txn = s.txn ∧ (s.setJport p j).unauthSec = s.unauthSec ∧ (s.setJport p j).unauthN = s.unauthN ∧
    (s.setJport p j).events = s.events ∧ (s.setJport p j).acked = s.acked ∧ (s.setJport p j).rate = s.rate ∧
    (s.setJport p j).noPrimary = s.noPrimary ∧ (s.setJport p j).near = s.near ∧ (s.setJport p j).off = s.off ∧ (s.setJport p j).beatMs = s.beatMs ∧
    (s.setJport p j).flash = s.flash ∧ (s.setJport p j).frz = s.frz ∧ (s.setJport p j).fired = s.fired ∧ (s.setJport p j).pst = s.pst ∧
    (s.setJport p j).exiting = s.exiting ∧ (s.setJport p j).zeroed = s.zeroed ∧ (s.setJport p j).clocks = s.clocks ∧
    (s.setJport p j).nearSt = s.nearSt ∧ (s.setJport p j).farSt = s.farSt ∧ (s.setJport p j).pins = s.pins ∧ (s.setJport p j).deficit = s.deficit ∧
    (s.setJport p j).lastStretch = s.lastStretch ∧ (s.setJport p j).strWin = s.strWin ∧ (s.setJport p j).limiter = s.limiter ∧
    (s.setJport p j).limFull = s.limFull ∧ (s.setJport p j).furlong = s.furlong ∧ (s.setJport p j).furlongNo = s.furlongNo ∧
    (s.setJport p j).forcedTo = s.forcedTo ∧ (s.setJport p j).limForce = s.limForce ∧ (s.setJport p j).moves = s.moves ∧
    (s.setJport p j).calibrated = s.calibrated ∧ (s.setJport p j).badCross = s.badCross ∧ (s.setJport p j).vet = s.vet ∧
    (s.setJport p j).recd = s.recd ∧ (s.setJport p j).serial = s.serial ∧ (s.setJport p j).out = s.out := by
  simp [State.setJport]

@[simp] theorem State.setQueue_fields (s : State) (q : Nat) (h : HQueue) :
    (s.setQueue q h).pending = s.pending ∧ (s.setQueue q h).fuse = s.fuse ∧ (s.setQueue q h).time = s.time ∧ (s.setQueue q h).half = s.half ∧
    (s.setQueue q h).slew = s.slew ∧ (s.setQueue q h).slewNs = s.slewNs ∧ (s.setQueue q h).cyc = s.cyc ∧ (s.setQueue q h).frame = s.frame ∧
    (s.setQueue q h).cores = s.cores ∧ (s.setQueue q h).mem = s.mem ∧ (s.setQueue q h).latent = s.latent ∧ (s.setQueue q h).progs = s.progs ∧
    (s.setQueue q h).dict = s.dict ∧ (s.setQueue q h).jports = s.jports ∧ (s.setQueue q h).timing = s.timing ∧ (s.setQueue q h).inbox = s.inbox ∧
    (s.setQueue q h).beacons = s.beacons ∧ (s.setQueue q h).light = s.light ∧ (s.setQueue q h).parts = s.parts ∧ (s.setQueue q h).rest = s.rest ∧
    (s.setQueue q h).spans = s.spans ∧ (s.setQueue q h).scrubbed = s.scrubbed ∧ (s.setQueue q h).hports = s.hports ∧ (s.setQueue q h).held = s.held ∧
    (s.setQueue q h).wins = s.wins ∧ (s.setQueue q h).ready = s.ready ∧ (s.setQueue q h).adapters = s.adapters ∧ (s.setQueue q h).cmds = s.cmds ∧
    (s.setQueue q h).draining = s.draining ∧ (s.setQueue q h).moving = s.moving ∧ (s.setQueue q h).readWait = s.readWait ∧
    (s.setQueue q h).dropped = s.dropped ∧ (s.setQueue q h).irs = s.irs ∧ (s.setQueue q h).irp = s.irp ∧ (s.setQueue q h).txn = s.txn ∧
    (s.setQueue q h).unauthSec = s.unauthSec ∧ (s.setQueue q h).unauthN = s.unauthN ∧ (s.setQueue q h).events = s.events ∧
    (s.setQueue q h).acked = s.acked ∧ (s.setQueue q h).rate = s.rate ∧ (s.setQueue q h).noPrimary = s.noPrimary ∧ (s.setQueue q h).near = s.near ∧
    (s.setQueue q h).off = s.off ∧ (s.setQueue q h).beatMs = s.beatMs ∧ (s.setQueue q h).flash = s.flash ∧ (s.setQueue q h).frz = s.frz ∧
    (s.setQueue q h).fired = s.fired ∧ (s.setQueue q h).pst = s.pst ∧ (s.setQueue q h).exiting = s.exiting ∧ (s.setQueue q h).zeroed = s.zeroed ∧
    (s.setQueue q h).clocks = s.clocks ∧ (s.setQueue q h).nearSt = s.nearSt ∧ (s.setQueue q h).farSt = s.farSt ∧ (s.setQueue q h).pins = s.pins ∧
    (s.setQueue q h).deficit = s.deficit ∧ (s.setQueue q h).lastStretch = s.lastStretch ∧ (s.setQueue q h).strWin = s.strWin ∧
    (s.setQueue q h).limiter = s.limiter ∧ (s.setQueue q h).limFull = s.limFull ∧ (s.setQueue q h).furlong = s.furlong ∧
    (s.setQueue q h).furlongNo = s.furlongNo ∧ (s.setQueue q h).forcedTo = s.forcedTo ∧ (s.setQueue q h).limForce = s.limForce ∧
    (s.setQueue q h).moves = s.moves ∧ (s.setQueue q h).calibrated = s.calibrated ∧ (s.setQueue q h).badCross = s.badCross ∧
    (s.setQueue q h).vet = s.vet ∧ (s.setQueue q h).recd = s.recd ∧ (s.setQueue q h).serial = s.serial ∧ (s.setQueue q h).out = s.out := by
  simp [State.setQueue]

@[simp] theorem State.setHport_fields (s : State) (p : Nat) (h : HPort) :
    (s.setHport p h).pending = s.pending ∧ (s.setHport p h).fuse = s.fuse ∧ (s.setHport p h).time = s.time ∧ (s.setHport p h).half = s.half ∧
    (s.setHport p h).slew = s.slew ∧ (s.setHport p h).slewNs = s.slewNs ∧ (s.setHport p h).cyc = s.cyc ∧ (s.setHport p h).frame = s.frame ∧
    (s.setHport p h).cores = s.cores ∧ (s.setHport p h).mem = s.mem ∧ (s.setHport p h).latent = s.latent ∧ (s.setHport p h).progs = s.progs ∧
    (s.setHport p h).dict = s.dict ∧ (s.setHport p h).jports = s.jports ∧ (s.setHport p h).timing = s.timing ∧ (s.setHport p h).inbox = s.inbox ∧
    (s.setHport p h).beacons = s.beacons ∧ (s.setHport p h).light = s.light ∧ (s.setHport p h).parts = s.parts ∧ (s.setHport p h).rest = s.rest ∧
    (s.setHport p h).spans = s.spans ∧ (s.setHport p h).scrubbed = s.scrubbed ∧ (s.setHport p h).held = s.held ∧ (s.setHport p h).queues = s.queues ∧
    (s.setHport p h).wins = s.wins ∧ (s.setHport p h).ready = s.ready ∧ (s.setHport p h).adapters = s.adapters ∧ (s.setHport p h).cmds = s.cmds ∧
    (s.setHport p h).draining = s.draining ∧ (s.setHport p h).moving = s.moving ∧ (s.setHport p h).readWait = s.readWait ∧
    (s.setHport p h).dropped = s.dropped ∧ (s.setHport p h).irs = s.irs ∧ (s.setHport p h).irp = s.irp ∧ (s.setHport p h).txn = s.txn ∧
    (s.setHport p h).unauthSec = s.unauthSec ∧ (s.setHport p h).unauthN = s.unauthN ∧ (s.setHport p h).events = s.events ∧
    (s.setHport p h).acked = s.acked ∧ (s.setHport p h).rate = s.rate ∧ (s.setHport p h).noPrimary = s.noPrimary ∧ (s.setHport p h).near = s.near ∧
    (s.setHport p h).off = s.off ∧ (s.setHport p h).beatMs = s.beatMs ∧ (s.setHport p h).flash = s.flash ∧ (s.setHport p h).frz = s.frz ∧
    (s.setHport p h).fired = s.fired ∧ (s.setHport p h).pst = s.pst ∧ (s.setHport p h).exiting = s.exiting ∧ (s.setHport p h).zeroed = s.zeroed ∧
    (s.setHport p h).clocks = s.clocks ∧ (s.setHport p h).nearSt = s.nearSt ∧ (s.setHport p h).farSt = s.farSt ∧ (s.setHport p h).pins = s.pins ∧
    (s.setHport p h).deficit = s.deficit ∧ (s.setHport p h).lastStretch = s.lastStretch ∧ (s.setHport p h).strWin = s.strWin ∧
    (s.setHport p h).limiter = s.limiter ∧ (s.setHport p h).limFull = s.limFull ∧ (s.setHport p h).furlong = s.furlong ∧
    (s.setHport p h).furlongNo = s.furlongNo ∧ (s.setHport p h).forcedTo = s.forcedTo ∧ (s.setHport p h).limForce = s.limForce ∧
    (s.setHport p h).moves = s.moves ∧ (s.setHport p h).calibrated = s.calibrated ∧ (s.setHport p h).badCross = s.badCross ∧
    (s.setHport p h).vet = s.vet ∧ (s.setHport p h).recd = s.recd ∧ (s.setHport p h).serial = s.serial ∧ (s.setHport p h).out = s.out := by
  simp [State.setHport]

@[simp] theorem State.setWin_fields (s : State) (i : Nat) (w : Win) :
    (s.setWin i w).pending = s.pending ∧ (s.setWin i w).fuse = s.fuse ∧ (s.setWin i w).time = s.time ∧ (s.setWin i w).half = s.half ∧
    (s.setWin i w).slew = s.slew ∧ (s.setWin i w).slewNs = s.slewNs ∧ (s.setWin i w).cyc = s.cyc ∧ (s.setWin i w).frame = s.frame ∧
    (s.setWin i w).cores = s.cores ∧ (s.setWin i w).mem = s.mem ∧ (s.setWin i w).latent = s.latent ∧ (s.setWin i w).progs = s.progs ∧
    (s.setWin i w).dict = s.dict ∧ (s.setWin i w).jports = s.jports ∧ (s.setWin i w).timing = s.timing ∧ (s.setWin i w).inbox = s.inbox ∧
    (s.setWin i w).beacons = s.beacons ∧ (s.setWin i w).light = s.light ∧ (s.setWin i w).parts = s.parts ∧ (s.setWin i w).rest = s.rest ∧
    (s.setWin i w).spans = s.spans ∧ (s.setWin i w).scrubbed = s.scrubbed ∧ (s.setWin i w).hports = s.hports ∧ (s.setWin i w).held = s.held ∧
    (s.setWin i w).queues = s.queues ∧ (s.setWin i w).ready = s.ready ∧ (s.setWin i w).adapters = s.adapters ∧ (s.setWin i w).cmds = s.cmds ∧
    (s.setWin i w).draining = s.draining ∧ (s.setWin i w).moving = s.moving ∧ (s.setWin i w).readWait = s.readWait ∧
    (s.setWin i w).dropped = s.dropped ∧ (s.setWin i w).irs = s.irs ∧ (s.setWin i w).irp = s.irp ∧ (s.setWin i w).txn = s.txn ∧
    (s.setWin i w).unauthSec = s.unauthSec ∧ (s.setWin i w).unauthN = s.unauthN ∧ (s.setWin i w).events = s.events ∧ (s.setWin i w).acked = s.acked ∧
    (s.setWin i w).rate = s.rate ∧ (s.setWin i w).noPrimary = s.noPrimary ∧ (s.setWin i w).near = s.near ∧ (s.setWin i w).off = s.off ∧
    (s.setWin i w).beatMs = s.beatMs ∧ (s.setWin i w).flash = s.flash ∧ (s.setWin i w).frz = s.frz ∧ (s.setWin i w).fired = s.fired ∧
    (s.setWin i w).pst = s.pst ∧ (s.setWin i w).exiting = s.exiting ∧ (s.setWin i w).zeroed = s.zeroed ∧ (s.setWin i w).clocks = s.clocks ∧
    (s.setWin i w).nearSt = s.nearSt ∧ (s.setWin i w).farSt = s.farSt ∧ (s.setWin i w).pins = s.pins ∧ (s.setWin i w).deficit = s.deficit ∧
    (s.setWin i w).lastStretch = s.lastStretch ∧ (s.setWin i w).strWin = s.strWin ∧ (s.setWin i w).limiter = s.limiter ∧
    (s.setWin i w).limFull = s.limFull ∧ (s.setWin i w).furlong = s.furlong ∧ (s.setWin i w).furlongNo = s.furlongNo ∧
    (s.setWin i w).forcedTo = s.forcedTo ∧ (s.setWin i w).limForce = s.limForce ∧ (s.setWin i w).moves = s.moves ∧
    (s.setWin i w).calibrated = s.calibrated ∧ (s.setWin i w).badCross = s.badCross ∧ (s.setWin i w).vet = s.vet ∧ (s.setWin i w).recd = s.recd ∧
    (s.setWin i w).serial = s.serial ∧ (s.setWin i w).out = s.out := by
  simp [State.setWin]

@[simp] theorem State.flashWrite_fields (s : State) (a : Nat) (l : List (BitVec 8)) :
    (s.flashWrite a l).pending = s.pending ∧ (s.flashWrite a l).fuse = s.fuse ∧ (s.flashWrite a l).time = s.time ∧ (s.flashWrite a l).half = s.half ∧
    (s.flashWrite a l).slew = s.slew ∧ (s.flashWrite a l).slewNs = s.slewNs ∧ (s.flashWrite a l).cyc = s.cyc ∧ (s.flashWrite a l).frame = s.frame ∧
    (s.flashWrite a l).cores = s.cores ∧ (s.flashWrite a l).mem = s.mem ∧ (s.flashWrite a l).latent = s.latent ∧ (s.flashWrite a l).progs = s.progs ∧
    (s.flashWrite a l).dict = s.dict ∧ (s.flashWrite a l).jports = s.jports ∧ (s.flashWrite a l).timing = s.timing ∧
    (s.flashWrite a l).inbox = s.inbox ∧ (s.flashWrite a l).beacons = s.beacons ∧ (s.flashWrite a l).light = s.light ∧
    (s.flashWrite a l).parts = s.parts ∧ (s.flashWrite a l).rest = s.rest ∧ (s.flashWrite a l).spans = s.spans ∧
    (s.flashWrite a l).scrubbed = s.scrubbed ∧ (s.flashWrite a l).hports = s.hports ∧ (s.flashWrite a l).held = s.held ∧
    (s.flashWrite a l).queues = s.queues ∧ (s.flashWrite a l).wins = s.wins ∧ (s.flashWrite a l).ready = s.ready ∧
    (s.flashWrite a l).adapters = s.adapters ∧ (s.flashWrite a l).cmds = s.cmds ∧ (s.flashWrite a l).draining = s.draining ∧
    (s.flashWrite a l).moving = s.moving ∧ (s.flashWrite a l).readWait = s.readWait ∧ (s.flashWrite a l).dropped = s.dropped ∧
    (s.flashWrite a l).irs = s.irs ∧ (s.flashWrite a l).irp = s.irp ∧ (s.flashWrite a l).txn = s.txn ∧ (s.flashWrite a l).unauthSec = s.unauthSec ∧
    (s.flashWrite a l).unauthN = s.unauthN ∧ (s.flashWrite a l).events = s.events ∧ (s.flashWrite a l).acked = s.acked ∧
    (s.flashWrite a l).rate = s.rate ∧ (s.flashWrite a l).noPrimary = s.noPrimary ∧ (s.flashWrite a l).near = s.near ∧
    (s.flashWrite a l).off = s.off ∧ (s.flashWrite a l).beatMs = s.beatMs ∧ (s.flashWrite a l).frz = s.frz ∧ (s.flashWrite a l).fired = s.fired ∧
    (s.flashWrite a l).pst = s.pst ∧ (s.flashWrite a l).exiting = s.exiting ∧ (s.flashWrite a l).zeroed = s.zeroed ∧
    (s.flashWrite a l).clocks = s.clocks ∧ (s.flashWrite a l).nearSt = s.nearSt ∧ (s.flashWrite a l).farSt = s.farSt ∧
    (s.flashWrite a l).pins = s.pins ∧ (s.flashWrite a l).deficit = s.deficit ∧ (s.flashWrite a l).lastStretch = s.lastStretch ∧
    (s.flashWrite a l).strWin = s.strWin ∧ (s.flashWrite a l).limiter = s.limiter ∧ (s.flashWrite a l).limFull = s.limFull ∧
    (s.flashWrite a l).furlong = s.furlong ∧ (s.flashWrite a l).furlongNo = s.furlongNo ∧ (s.flashWrite a l).forcedTo = s.forcedTo ∧
    (s.flashWrite a l).limForce = s.limForce ∧ (s.flashWrite a l).moves = s.moves ∧ (s.flashWrite a l).calibrated = s.calibrated ∧
    (s.flashWrite a l).badCross = s.badCross ∧ (s.flashWrite a l).vet = s.vet ∧ (s.flashWrite a l).recd = s.recd ∧
    (s.flashWrite a l).serial = s.serial ∧ (s.flashWrite a l).out = s.out := by
  simp [State.flashWrite]

@[simp] theorem State.setPend_fields (s : State) (id : Nat) (p : IrPend) :
    (s.setPend id p).pending = s.pending ∧ (s.setPend id p).fuse = s.fuse ∧ (s.setPend id p).time = s.time ∧ (s.setPend id p).half = s.half ∧
    (s.setPend id p).slew = s.slew ∧ (s.setPend id p).slewNs = s.slewNs ∧ (s.setPend id p).cyc = s.cyc ∧ (s.setPend id p).frame = s.frame ∧
    (s.setPend id p).cores = s.cores ∧ (s.setPend id p).mem = s.mem ∧ (s.setPend id p).latent = s.latent ∧ (s.setPend id p).progs = s.progs ∧
    (s.setPend id p).dict = s.dict ∧ (s.setPend id p).jports = s.jports ∧ (s.setPend id p).timing = s.timing ∧ (s.setPend id p).inbox = s.inbox ∧
    (s.setPend id p).beacons = s.beacons ∧ (s.setPend id p).light = s.light ∧ (s.setPend id p).parts = s.parts ∧ (s.setPend id p).rest = s.rest ∧
    (s.setPend id p).spans = s.spans ∧ (s.setPend id p).scrubbed = s.scrubbed ∧ (s.setPend id p).hports = s.hports ∧ (s.setPend id p).held = s.held ∧
    (s.setPend id p).queues = s.queues ∧ (s.setPend id p).wins = s.wins ∧ (s.setPend id p).ready = s.ready ∧ (s.setPend id p).adapters = s.adapters ∧
    (s.setPend id p).cmds = s.cmds ∧ (s.setPend id p).draining = s.draining ∧ (s.setPend id p).moving = s.moving ∧
    (s.setPend id p).readWait = s.readWait ∧ (s.setPend id p).dropped = s.dropped ∧ (s.setPend id p).irs = s.irs ∧ (s.setPend id p).txn = s.txn ∧
    (s.setPend id p).unauthSec = s.unauthSec ∧ (s.setPend id p).unauthN = s.unauthN ∧ (s.setPend id p).events = s.events ∧
    (s.setPend id p).acked = s.acked ∧ (s.setPend id p).rate = s.rate ∧ (s.setPend id p).noPrimary = s.noPrimary ∧ (s.setPend id p).near = s.near ∧
    (s.setPend id p).off = s.off ∧ (s.setPend id p).beatMs = s.beatMs ∧ (s.setPend id p).flash = s.flash ∧ (s.setPend id p).frz = s.frz ∧
    (s.setPend id p).fired = s.fired ∧ (s.setPend id p).pst = s.pst ∧ (s.setPend id p).exiting = s.exiting ∧ (s.setPend id p).zeroed = s.zeroed ∧
    (s.setPend id p).clocks = s.clocks ∧ (s.setPend id p).nearSt = s.nearSt ∧ (s.setPend id p).farSt = s.farSt ∧ (s.setPend id p).pins = s.pins ∧
    (s.setPend id p).deficit = s.deficit ∧ (s.setPend id p).lastStretch = s.lastStretch ∧ (s.setPend id p).strWin = s.strWin ∧
    (s.setPend id p).limiter = s.limiter ∧ (s.setPend id p).limFull = s.limFull ∧ (s.setPend id p).furlong = s.furlong ∧
    (s.setPend id p).furlongNo = s.furlongNo ∧ (s.setPend id p).forcedTo = s.forcedTo ∧ (s.setPend id p).limForce = s.limForce ∧
    (s.setPend id p).moves = s.moves ∧ (s.setPend id p).calibrated = s.calibrated ∧ (s.setPend id p).badCross = s.badCross ∧
    (s.setPend id p).vet = s.vet ∧ (s.setPend id p).recd = s.recd ∧ (s.setPend id p).serial = s.serial ∧ (s.setPend id p).out = s.out := by
  simp [State.setPend]

end Sys2Proof.Machine
end

