-- ==== Sys2Proof/Laws/Frame.lean ====
section
/-! SUPPORT. Frames of the shared operations: what none of them touches. Every operation over the state leaves the queue of commands alone,
and all but those of the management controllers leave the fuses, the flash and the two controllers alone. -/

namespace Sys2Proof.Machine

/-! ### Folds and branches -/

@[simp] theorem foldl_pending {β : Type} (f : State → β → State) (l : List β) (s : State) (h : ∀ s x, (f s x).pending = s.pending) :
    (l.foldl f s).pending = s.pending := by
  induction l generalizing s with
  | nil => rfl
  | cons a l ih => simp [List.foldl, ih, h]
@[simp] theorem ite_pending (c : Prop) [Decidable c] (a b : State) : (if c then a else b).pending = if c then a.pending else b.pending := by split <;> rfl
@[simp] theorem foldl_fuse {β : Type} (f : State → β → State) (l : List β) (s : State) (h : ∀ s x, (f s x).fuse = s.fuse) :
    (l.foldl f s).fuse = s.fuse := by
  induction l generalizing s with
  | nil => rfl
  | cons a l ih => simp [List.foldl, ih, h]
@[simp] theorem ite_fuse (c : Prop) [Decidable c] (a b : State) : (if c then a else b).fuse = if c then a.fuse else b.fuse := by split <;> rfl
@[simp] theorem foldl_flash {β : Type} (f : State → β → State) (l : List β) (s : State) (h : ∀ s x, (f s x).flash = s.flash) :
    (l.foldl f s).flash = s.flash := by
  induction l generalizing s with
  | nil => rfl
  | cons a l ih => simp [List.foldl, ih, h]
@[simp] theorem ite_flash (c : Prop) [Decidable c] (a b : State) : (if c then a else b).flash = if c then a.flash else b.flash := by split <;> rfl
@[simp] theorem foldl_near {β : Type} (f : State → β → State) (l : List β) (s : State) (h : ∀ s x, (f s x).near = s.near) :
    (l.foldl f s).near = s.near := by
  induction l generalizing s with
  | nil => rfl
  | cons a l ih => simp [List.foldl, ih, h]
@[simp] theorem ite_near (c : Prop) [Decidable c] (a b : State) : (if c then a else b).near = if c then a.near else b.near := by split <;> rfl
@[simp] theorem foldl_off {β : Type} (f : State → β → State) (l : List β) (s : State) (h : ∀ s x, (f s x).off = s.off) :
    (l.foldl f s).off = s.off := by
  induction l generalizing s with
  | nil => rfl
  | cons a l ih => simp [List.foldl, ih, h]
@[simp] theorem ite_off (c : Prop) [Decidable c] (a b : State) : (if c then a else b).off = if c then a.off else b.off := by split <;> rfl

@[simp] theorem State.setAt_keeps (s : State) (idx sub sel v : Nat) :
    (State.setAt s idx sub sel v).pending = s.pending ∧ (State.setAt s idx sub sel v).fuse = s.fuse ∧ (State.setAt s idx sub sel v).flash = s.flash ∧ (State.setAt s idx sub sel v).near = s.near ∧ (State.setAt s idx sub sel v).off = s.off := by
  simp [State.setAt]

@[simp] theorem State.setVal_keeps (s : State) (idx sub v : Nat) :
    (State.setVal s idx sub v).pending = s.pending ∧ (State.setVal s idx sub v).fuse = s.fuse ∧ (State.setVal s idx sub v).flash = s.flash ∧ (State.setVal s idx sub v).near = s.near ∧ (State.setVal s idx sub v).off = s.off := by
  simp [State.setVal]

@[simp] theorem State.bumpAt_keeps (s : State) (idx sub sel n : Nat) :
    (State.bumpAt s idx sub sel n).pending = s.pending ∧ (State.bumpAt s idx sub sel n).fuse = s.fuse ∧ (State.bumpAt s idx sub sel n).flash = s.flash ∧ (State.bumpAt s idx sub sel n).near = s.near ∧ (State.bumpAt s idx sub sel n).off = s.off := by
  simp [State.bumpAt]

@[simp] theorem State.bump_keeps (s : State) (idx sub n : Nat) :
    (State.bump s idx sub n).pending = s.pending ∧ (State.bump s idx sub n).fuse = s.fuse ∧ (State.bump s idx sub n).flash = s.flash ∧ (State.bump s idx sub n).near = s.near ∧ (State.bump s idx sub n).off = s.off := by
  simp [State.bump]

@[simp] theorem State.dropSess_keeps (s : State) (drop : OdCls → Bool) (lo hi : Nat) :
    (State.dropSess s drop lo hi).pending = s.pending ∧ (State.dropSess s drop lo hi).fuse = s.fuse ∧ (State.dropSess s drop lo hi).flash = s.flash ∧ (State.dropSess s drop lo hi).near = s.near ∧ (State.dropSess s drop lo hi).off = s.off := by
  simp [State.dropSess]

@[simp] theorem State.dropEntries_keeps (s : State) (drop : OdCls → Bool) (lo hi : Nat) :
    (State.dropEntries s drop lo hi).pending = s.pending ∧ (State.dropEntries s drop lo hi).fuse = s.fuse ∧ (State.dropEntries s drop lo hi).flash = s.flash ∧ (State.dropEntries s drop lo hi).near = s.near ∧ (State.dropEntries s drop lo hi).off = s.off := by
  simp [State.dropEntries]

@[simp] theorem State.log_keeps (s : State) (e : Event) :
    (State.log s e).pending = s.pending ∧ (State.log s e).fuse = s.fuse ∧ (State.log s e).flash = s.flash ∧ (State.log s e).near = s.near ∧ (State.log s e).off = s.off := by
  simp [State.log]

@[simp] theorem State.logChip_keeps (s : State) (code core detail : Nat) :
    (State.logChip s code core detail).pending = s.pending ∧ (State.logChip s code core detail).fuse = s.fuse ∧ (State.logChip s code core detail).flash = s.flash ∧ (State.logChip s code core detail).near = s.near ∧ (State.logChip s code core detail).off = s.off := by
  simp [State.logChip]

@[simp] theorem State.setCore_keeps (s : State) (c : Nat) (k : Core) :
    (State.setCore s c k).pending = s.pending ∧ (State.setCore s c k).fuse = s.fuse ∧ (State.setCore s c k).flash = s.flash ∧ (State.setCore s c k).near = s.near ∧ (State.setCore s c k).off = s.off := by
  simp [State.setCore]

@[simp] theorem State.setProg_keeps (s : State) (n : Nat) (p : Prog) :
    (State.setProg s n p).pending = s.pending ∧ (State.setProg s n p).fuse = s.fuse ∧ (State.setProg s n p).flash = s.flash ∧ (State.setProg s n p).near = s.near ∧ (State.setProg s n p).off = s.off := by
  simp [State.setProg]

@[simp] theorem State.updProg_keeps (s : State) (n : Nat) (f : Prog → Prog) :
    (State.updProg s n f).pending = s.pending ∧ (State.updProg s n f).fuse = s.fuse ∧ (State.updProg s n f).flash = s.flash ∧ (State.updProg s n f).near = s.near ∧ (State.updProg s n f).off = s.off := by
  unfold State.updProg; (repeat' split) <;> simp

@[simp] theorem State.setJport_keeps (s : State) (p : Nat) (j : JPort) :
    (State.setJport s p j).pending = s.pending ∧ (State.setJport s p j).fuse = s.fuse ∧ (State.setJport s p j).flash = s.flash ∧ (State.setJport s p j).near = s.near ∧ (State.setJport s p j).off = s.off := by
  simp [State.setJport]

@[simp] theorem State.passNs_keeps (s : State) (n : Nat) :
    (State.passNs s n).pending = s.pending ∧ (State.passNs s n).fuse = s.fuse ∧ (State.passNs s n).flash = s.flash ∧ (State.passNs s n).near = s.near ∧ (State.passNs s n).off = s.off := by
  simp [State.passNs]

@[simp] theorem State.gainTokens_keeps (n : Nat) (s : State) (l : List Nat) :
    (State.gainTokens n s l).pending = s.pending ∧ (State.gainTokens n s l).fuse = s.fuse ∧ (State.gainTokens n s l).flash = s.flash ∧ (State.gainTokens n s l).near = s.near ∧ (State.gainTokens n s l).off = s.off := by
  simp [State.gainTokens]

@[simp] theorem State.countStall_keeps (n : Nat) (s : State) (c : Stall) :
    (State.countStall n s c).pending = s.pending ∧ (State.countStall n s c).fuse = s.fuse ∧ (State.countStall n s c).flash = s.flash ∧ (State.countStall n s c).near = s.near ∧ (State.countStall n s c).off = s.off := by
  unfold State.countStall; (repeat' split) <;> simp

@[simp] theorem State.stallPass_keeps (n : Nat) (s : State) (k : Nat) :
    (State.stallPass n s k).pending = s.pending ∧ (State.stallPass n s k).fuse = s.fuse ∧ (State.stallPass n s k).flash = s.flash ∧ (State.stallPass n s k).near = s.near ∧ (State.stallPass n s k).off = s.off := by
  unfold State.stallPass; (repeat' split) <;> simp

@[simp] theorem State.addCycles_keeps (s : State) (n : Nat) :
    (State.addCycles s n).pending = s.pending ∧ (State.addCycles s n).fuse = s.fuse ∧ (State.addCycles s n).flash = s.flash ∧ (State.addCycles s n).near = s.near ∧ (State.addCycles s n).off = s.off := by
  simp [State.addCycles]

@[simp] theorem State.pace_keeps (s : State) (c : Nat) :
    (State.pace s c).pending = s.pending ∧ (State.pace s c).fuse = s.fuse ∧ (State.pace s c).flash = s.flash ∧ (State.pace s c).near = s.near ∧ (State.pace s c).off = s.off := by
  simp only [State.pace]; (repeat' split) <;> simp

@[simp] theorem State.setQueue_keeps (s : State) (q : Nat) (h : HQueue) :
    (State.setQueue s q h).pending = s.pending ∧ (State.setQueue s q h).fuse = s.fuse ∧ (State.setQueue s q h).flash = s.flash ∧ (State.setQueue s q h).near = s.near ∧ (State.setQueue s q h).off = s.off := by
  simp [State.setQueue]

@[simp] theorem State.sendHost_keeps (s : State) (q n : Nat) (o : Out) :
    (State.sendHost s q n o).pending = s.pending ∧ (State.sendHost s q n o).fuse = s.fuse ∧ (State.sendHost s q n o).flash = s.flash ∧ (State.sendHost s q n o).near = s.near ∧ (State.sendHost s q n o).off = s.off := by
  simp [State.sendHost]

@[simp] theorem State.freeHeld_keeps (s : State) :
    (State.freeHeld s).pending = s.pending ∧ (State.freeHeld s).fuse = s.fuse ∧ (State.freeHeld s).flash = s.flash ∧ (State.freeHeld s).near = s.near ∧ (State.freeHeld s).off = s.off := by
  simp [State.freeHeld]

@[simp] theorem State.dropHeld_keeps (s : State) (p : Nat) :
    (State.dropHeld s p).pending = s.pending ∧ (State.dropHeld s p).fuse = s.fuse ∧ (State.dropHeld s p).flash = s.flash ∧ (State.dropHeld s p).near = s.near ∧ (State.dropHeld s p).off = s.off := by
  simp [State.dropHeld]

@[simp] theorem State.writeCompl_keeps (s : State) (q : Nat) (c : Compl) :
    (State.writeCompl s q c).pending = s.pending ∧ (State.writeCompl s q c).fuse = s.fuse ∧ (State.writeCompl s q c).flash = s.flash ∧ (State.writeCompl s q c).near = s.near ∧ (State.writeCompl s q c).off = s.off := by
  simp [State.writeCompl]

@[simp] theorem State.post_keeps (s : State) (q : Nat) (c : Compl) :
    (State.post s q c).pending = s.pending ∧ (State.post s q c).fuse = s.fuse ∧ (State.post s q c).flash = s.flash ∧ (State.post s q c).near = s.near ∧ (State.post s q c).off = s.off := by
  simp [State.post]

@[simp] theorem State.complete_keeps (s : State) (q tag status : Nat) (value : Option Nat) :
    (State.complete s q tag status value).pending = s.pending ∧ (State.complete s q tag status value).fuse = s.fuse ∧ (State.complete s q tag status value).flash = s.flash ∧ (State.complete s q tag status value).near = s.near ∧ (State.complete s q tag status value).off = s.off := by
  simp only [State.complete]; (repeat' split) <;> simp

@[simp] theorem State.postEvent_keeps (s : State) (code : Nat) :
    (State.postEvent s code).pending = s.pending ∧ (State.postEvent s code).fuse = s.fuse ∧ (State.postEvent s code).flash = s.flash ∧ (State.postEvent s code).near = s.near ∧ (State.postEvent s code).off = s.off := by
  simp [State.postEvent]

@[simp] theorem State.useAdapter_keeps (s : State) (a : Option Nat) (join : Bool) :
    (State.useAdapter s a join).pending = s.pending ∧ (State.useAdapter s a join).fuse = s.fuse ∧ (State.useAdapter s a join).flash = s.flash ∧ (State.useAdapter s a join).near = s.near ∧ (State.useAdapter s a join).off = s.off := by
  unfold State.useAdapter; (repeat' split) <;> simp

@[simp] theorem State.countSess_keeps (s : State) (d : Sess) (more : Bool) :
    (State.countSess s d more).pending = s.pending ∧ (State.countSess s d more).fuse = s.fuse ∧ (State.countSess s d more).flash = s.flash ∧ (State.countSess s d more).near = s.near ∧ (State.countSess s d more).off = s.off := by
  simp [State.countSess]

@[simp] theorem State.setSess_keeps (s : State) (i : Nat) (d : Sess) :
    (State.setSess s i d).pending = s.pending ∧ (State.setSess s i d).fuse = s.fuse ∧ (State.setSess s i d).flash = s.flash ∧ (State.setSess s i d).near = s.near ∧ (State.setSess s i d).off = s.off := by
  simp [State.setSess]

@[simp] theorem State.sendFlit_keeps (s : State) (p : Nat) (q : Queued) :
    (State.sendFlit s p q).pending = s.pending ∧ (State.sendFlit s p q).fuse = s.fuse ∧ (State.sendFlit s p q).flash = s.flash ∧ (State.sendFlit s p q).near = s.near ∧ (State.sendFlit s p q).off = s.off := by
  simp [State.sendFlit]

@[simp] theorem State.sendBare_keeps (s : State) (p : Nat) (f : Sys2Proof.Flit) :
    (State.sendBare s p f).pending = s.pending ∧ (State.sendBare s p f).fuse = s.fuse ∧ (State.sendBare s p f).flash = s.flash ∧ (State.sendBare s p f).near = s.near ∧ (State.sendBare s p f).off = s.off := by
  simp [State.sendBare]

@[simp] theorem State.owe_keeps (s : State) (o : Option (Nat × Nat)) :
    (State.owe s o).pending = s.pending ∧ (State.owe s o).fuse = s.fuse ∧ (State.owe s o).flash = s.flash ∧ (State.owe s o).near = s.near ∧ (State.owe s o).off = s.off := by
  unfold State.owe; (repeat' split) <;> simp

@[simp] theorem State.pump_keeps (p n : Nat) (s : State) :
    (State.pump p n s).pending = s.pending ∧ (State.pump p n s).fuse = s.fuse ∧ (State.pump p n s).flash = s.flash ∧ (State.pump p n s).near = s.near ∧ (State.pump p n s).off = s.off := by
  induction n generalizing s with
  | zero => simp [State.pump]
  | succ n ih => unfold State.pump; split <;> simp [ih]

@[simp] theorem State.pumpAll_keeps (s : State) (p : Nat) :
    (State.pumpAll s p).pending = s.pending ∧ (State.pumpAll s p).fuse = s.fuse ∧ (State.pumpAll s p).flash = s.flash ∧ (State.pumpAll s p).near = s.near ∧ (State.pumpAll s p).off = s.off := by
  simp [State.pumpAll]

@[simp] theorem State.pumpIdle_keeps (s : State) (p : Nat) :
    (State.pumpIdle s p).pending = s.pending ∧ (State.pumpIdle s p).fuse = s.fuse ∧ (State.pumpIdle s p).flash = s.flash ∧ (State.pumpIdle s p).near = s.near ∧ (State.pumpIdle s p).off = s.off := by
  simp [State.pumpIdle]

@[simp] theorem State.arriveSess_keeps (s : State) (i : Nat) :
    (State.arriveSess s i).pending = s.pending ∧ (State.arriveSess s i).fuse = s.fuse ∧ (State.arriveSess s i).flash = s.flash ∧ (State.arriveSess s i).near = s.near ∧ (State.arriveSess s i).off = s.off := by
  simp [State.arriveSess]

@[simp] theorem State.answerCmd_keeps (s : State) (c : SCmd) (status : Nat) :
    (State.answerCmd s c status).pending = s.pending ∧ (State.answerCmd s c status).fuse = s.fuse ∧ (State.answerCmd s c status).flash = s.flash ∧ (State.answerCmd s c status).near = s.near ∧ (State.answerCmd s c status).off = s.off := by
  simp only [State.answerCmd]; (repeat' split) <;> simp

@[simp] theorem State.killSess_keeps (s : State) (i : Nat) :
    (State.killSess s i).pending = s.pending ∧ (State.killSess s i).fuse = s.fuse ∧ (State.killSess s i).flash = s.flash ∧ (State.killSess s i).near = s.near ∧ (State.killSess s i).off = s.off := by
  simp [State.killSess]

@[simp] theorem State.toIdle_keeps (s : State) (i : Nat) (kept : Bool) :
    (State.toIdle s i kept).pending = s.pending ∧ (State.toIdle s i kept).fuse = s.fuse ∧ (State.toIdle s i kept).flash = s.flash ∧ (State.toIdle s i kept).near = s.near ∧ (State.toIdle s i kept).off = s.off := by
  simp [State.toIdle]

@[simp] theorem State.askCopy_keeps (s : State) (i : Nat) (c : SCmd) :
    (State.askCopy s i c).pending = s.pending ∧ (State.askCopy s i c).fuse = s.fuse ∧ (State.askCopy s i c).flash = s.flash ∧ (State.askCopy s i c).near = s.near ∧ (State.askCopy s i c).off = s.off := by
  simp [State.askCopy]

@[simp] theorem State.beginRead_keeps (s : State) (c : SCmd) :
    (State.beginRead s c).pending = s.pending ∧ (State.beginRead s c).fuse = s.fuse ∧ (State.beginRead s c).flash = s.flash ∧ (State.beginRead s c).near = s.near ∧ (State.beginRead s c).off = s.off := by
  simp [State.beginRead]

@[simp] theorem State.pumpReads_keeps (s : State) :
    (State.pumpReads s).pending = s.pending ∧ (State.pumpReads s).fuse = s.fuse ∧ (State.pumpReads s).flash = s.flash ∧ (State.pumpReads s).near = s.near ∧ (State.pumpReads s).off = s.off := by
  unfold State.pumpReads; refine ⟨?_, ?_, ?_, ?_, ?_⟩
  · exact foldl_pending _ _ _ fun s x => by (repeat' split) <;> simp
  · exact foldl_fuse _ _ _ fun s x => by (repeat' split) <;> simp
  · exact foldl_flash _ _ _ fun s x => by (repeat' split) <;> simp
  · exact foldl_near _ _ _ fun s x => by (repeat' split) <;> simp
  · exact foldl_off _ _ _ fun s x => by (repeat' split) <;> simp

@[simp] theorem State.endMove_keeps (s : State) (i : Nat) :
    (State.endMove s i).pending = s.pending ∧ (State.endMove s i).fuse = s.fuse ∧ (State.endMove s i).flash = s.flash ∧ (State.endMove s i).near = s.near ∧ (State.endMove s i).off = s.off := by
  simp [State.endMove]

@[simp] theorem State.evictNow_keeps (s : State) (c : SCmd) :
    (State.evictNow s c).pending = s.pending ∧ (State.evictNow s c).fuse = s.fuse ∧ (State.evictNow s c).flash = s.flash ∧ (State.evictNow s c).near = s.near ∧ (State.evictNow s c).off = s.off := by
  simp [State.evictNow]

@[simp] theorem State.deleteNow_keeps (s : State) (c : SCmd) :
    (State.deleteNow s c).pending = s.pending ∧ (State.deleteNow s c).fuse = s.fuse ∧ (State.deleteNow s c).flash = s.flash ∧ (State.deleteNow s c).near = s.near ∧ (State.deleteNow s c).off = s.off := by
  simp [State.deleteNow]

@[simp] theorem State.drained_keeps (s : State) (c : SCmd) :
    (State.drained s c).pending = s.pending ∧ (State.drained s c).fuse = s.fuse ∧ (State.drained s c).flash = s.flash ∧ (State.drained s c).near = s.near ∧ (State.drained s c).off = s.off := by
  simp [State.drained]

@[simp] theorem State.cmdCreate_keeps (s : State) (c : SCmd) :
    (State.cmdCreate s c).pending = s.pending ∧ (State.cmdCreate s c).fuse = s.fuse ∧ (State.cmdCreate s c).flash = s.flash ∧ (State.cmdCreate s c).near = s.near ∧ (State.cmdCreate s c).off = s.off := by
  simp [State.cmdCreate]

@[simp] theorem State.cmdSet_keeps (s : State) (c : SCmd) :
    (State.cmdSet s c).pending = s.pending ∧ (State.cmdSet s c).fuse = s.fuse ∧ (State.cmdSet s c).flash = s.flash ∧ (State.cmdSet s c).near = s.near ∧ (State.cmdSet s c).off = s.off := by
  simp [State.cmdSet]

@[simp] theorem State.toResident_keeps (s : State) (i place : Nat) :
    (State.toResident s i place).pending = s.pending ∧ (State.toResident s i place).fuse = s.fuse ∧ (State.toResident s i place).flash = s.flash ∧ (State.toResident s i place).near = s.near ∧ (State.toResident s i place).off = s.off := by
  simp [State.toResident]

@[simp] theorem State.cmdRestore_keeps (s : State) (c : SCmd) :
    (State.cmdRestore s c).pending = s.pending ∧ (State.cmdRestore s c).fuse = s.fuse ∧ (State.cmdRestore s c).flash = s.flash ∧ (State.cmdRestore s c).near = s.near ∧ (State.cmdRestore s c).off = s.off := by
  unfold State.cmdRestore; (repeat' split) <;> simp

@[simp] theorem State.cmdLeave_keeps (s : State) (c : SCmd) :
    (State.cmdLeave s c).pending = s.pending ∧ (State.cmdLeave s c).fuse = s.fuse ∧ (State.cmdLeave s c).flash = s.flash ∧ (State.cmdLeave s c).near = s.near ∧ (State.cmdLeave s c).off = s.off := by
  simp only [State.cmdLeave]; (repeat' split) <;> simp

@[simp] theorem State.cmdAdapter_keeps (s : State) (c : SCmd) :
    (State.cmdAdapter s c).pending = s.pending ∧ (State.cmdAdapter s c).fuse = s.fuse ∧ (State.cmdAdapter s c).flash = s.flash ∧ (State.cmdAdapter s c).near = s.near ∧ (State.cmdAdapter s c).off = s.off := by
  simp [State.cmdAdapter]

@[simp] theorem State.endDrain_keeps (s : State) (i : Nat) :
    (State.endDrain s i).pending = s.pending ∧ (State.endDrain s i).fuse = s.fuse ∧ (State.endDrain s i).flash = s.flash ∧ (State.endDrain s i).near = s.near ∧ (State.endDrain s i).off = s.off := by
  simp [State.endDrain]

@[simp] theorem State.beginDrain_keeps (s : State) (c : SCmd) :
    (State.beginDrain s c).pending = s.pending ∧ (State.beginDrain s c).fuse = s.fuse ∧ (State.beginDrain s c).flash = s.flash ∧ (State.beginDrain s c).near = s.near ∧ (State.beginDrain s c).off = s.off := by
  unfold State.beginDrain; (repeat' split) <;> simp

@[simp] theorem State.applyCmd_keeps (s : State) (c : SCmd) :
    (State.applyCmd s c).pending = s.pending ∧ (State.applyCmd s c).fuse = s.fuse ∧ (State.applyCmd s c).flash = s.flash ∧ (State.applyCmd s c).near = s.near ∧ (State.applyCmd s c).off = s.off := by
  simp only [State.applyCmd]; (repeat' split) <;> simp

@[simp] theorem State.nextCmd_keeps (s : State) (c : SCmd) :
    (State.nextCmd s c).pending = s.pending ∧ (State.nextCmd s c).fuse = s.fuse ∧ (State.nextCmd s c).flash = s.flash ∧ (State.nextCmd s c).near = s.near ∧ (State.nextCmd s c).off = s.off := by
  simp [State.nextCmd]

@[simp] theorem State.applyCmds_keeps (s : State) :
    (State.applyCmds s).pending = s.pending ∧ (State.applyCmds s).fuse = s.fuse ∧ (State.applyCmds s).flash = s.flash ∧ (State.applyCmds s).near = s.near ∧ (State.applyCmds s).off = s.off := by
  simp [State.applyCmds]

@[simp] theorem State.resumeCmds_keeps (s : State) :
    (State.resumeCmds s).pending = s.pending ∧ (State.resumeCmds s).fuse = s.fuse ∧ (State.resumeCmds s).flash = s.flash ∧ (State.resumeCmds s).near = s.near ∧ (State.resumeCmds s).off = s.off := by
  simp [State.resumeCmds]

@[simp] theorem State.arriveCmd_keeps (s : State) (c : SCmd) :
    (State.arriveCmd s c).pending = s.pending ∧ (State.arriveCmd s c).fuse = s.fuse ∧ (State.arriveCmd s c).flash = s.flash ∧ (State.arriveCmd s c).near = s.near ∧ (State.arriveCmd s c).off = s.off := by
  simp [State.arriveCmd]

@[simp] theorem State.cancelCmd_keeps (s : State) (c : SCmd) :
    (State.cancelCmd s c).pending = s.pending ∧ (State.cancelCmd s c).fuse = s.fuse ∧ (State.cancelCmd s c).flash = s.flash ∧ (State.cancelCmd s c).near = s.near ∧ (State.cancelCmd s c).off = s.off := by
  simp [State.cancelCmd]

@[simp] theorem State.enterTiming_keeps (s : State) (p n : Nat) (pr : Prog) (f : Sys2Proof.Flit) :
    (State.enterTiming s p n pr f).pending = s.pending ∧ (State.enterTiming s p n pr f).fuse = s.fuse ∧ (State.enterTiming s p n pr f).flash = s.flash ∧ (State.enterTiming s p n pr f).near = s.near ∧ (State.enterTiming s p n pr f).off = s.off := by
  simp [State.enterTiming]

@[simp] theorem State.letIn_keeps (s : State) (p : Nat) :
    (State.letIn s p).pending = s.pending ∧ (State.letIn s p).fuse = s.fuse ∧ (State.letIn s p).flash = s.flash ∧ (State.letIn s p).near = s.near ∧ (State.letIn s p).off = s.off := by
  unfold State.letIn; (repeat' split) <;> simp

@[simp] theorem State.dropFlits_keeps (s : State) (n : Nat) (p : Prog) :
    (State.dropFlits s n p).pending = s.pending ∧ (State.dropFlits s n p).fuse = s.fuse ∧ (State.dropFlits s n p).flash = s.flash ∧ (State.dropFlits s n p).near = s.near ∧ (State.dropFlits s n p).off = s.off := by
  simp [State.dropFlits]

@[simp] theorem State.endTicket_keeps (s : State) (t : Option Ticket) (status : Nat) (value : Option Nat) :
    (State.endTicket s t status value).pending = s.pending ∧ (State.endTicket s t status value).fuse = s.fuse ∧ (State.endTicket s t status value).flash = s.flash ∧ (State.endTicket s t status value).near = s.near ∧ (State.endTicket s t status value).off = s.off := by
  unfold State.endTicket; (repeat' split) <;> simp

@[simp] theorem State.freeRest_keeps (s : State) (p : Prog) :
    (State.freeRest s p).pending = s.pending ∧ (State.freeRest s p).fuse = s.fuse ∧ (State.freeRest s p).flash = s.flash ∧ (State.freeRest s p).near = s.near ∧ (State.freeRest s p).off = s.off := by
  simp [State.freeRest]

@[simp] theorem State.freeBatch_keeps (s : State) (p : Prog) :
    (State.freeBatch s p).pending = s.pending ∧ (State.freeBatch s p).fuse = s.fuse ∧ (State.freeBatch s p).flash = s.flash ∧ (State.freeBatch s p).near = s.near ∧ (State.freeBatch s p).off = s.off := by
  simp [State.freeBatch]

@[simp] theorem State.closeProg_keeps (s : State) (n status : Nat) (value : Option Nat) :
    (State.closeProg s n status value).pending = s.pending ∧ (State.closeProg s n status value).fuse = s.fuse ∧ (State.closeProg s n status value).flash = s.flash ∧ (State.closeProg s n status value).near = s.near ∧ (State.closeProg s n status value).off = s.off := by
  unfold State.closeProg; (repeat' split) <;> simp

@[simp] theorem State.setVet_keeps (s : State) (v : Option Vet) (st : Nat) :
    (State.setVet s v st).pending = s.pending ∧ (State.setVet s v st).fuse = s.fuse ∧ (State.setVet s v st).flash = s.flash ∧ (State.setVet s v st).near = s.near ∧ (State.setVet s v st).off = s.off := by
  simp [State.setVet]

@[simp] theorem State.vetOver_keeps (s : State) (n : Nat) :
    (State.vetOver s n).pending = s.pending ∧ (State.vetOver s n).fuse = s.fuse ∧ (State.vetOver s n).flash = s.flash ∧ (State.vetOver s n).near = s.near ∧ (State.vetOver s n).off = s.off := by
  unfold State.vetOver; (repeat' split) <;> simp

@[simp] theorem State.endProg_keeps (s : State) (n status : Nat) (value : Option Nat) :
    (State.endProg s n status value).pending = s.pending ∧ (State.endProg s n status value).fuse = s.fuse ∧ (State.endProg s n status value).flash = s.flash ∧ (State.endProg s n status value).near = s.near ∧ (State.endProg s n status value).off = s.off := by
  unfold State.endProg; (repeat' split) <;> simp

@[simp] theorem State.settleStop_keeps (s : State) (n : Nat) :
    (State.settleStop s n).pending = s.pending ∧ (State.settleStop s n).fuse = s.fuse ∧ (State.settleStop s n).flash = s.flash ∧ (State.settleStop s n).near = s.near ∧ (State.settleStop s n).off = s.off := by
  unfold State.settleStop; (repeat' split) <;> simp

@[simp] theorem State.programError_keeps (s : State) (n core : Nat) (e : PErr) (eng ctx pc detail : Nat) :
    (State.programError s n core e eng ctx pc detail).pending = s.pending ∧ (State.programError s n core e eng ctx pc detail).fuse = s.fuse ∧ (State.programError s n core e eng ctx pc detail).flash = s.flash ∧ (State.programError s n core e eng ctx pc detail).near = s.near ∧ (State.programError s n core e eng ctx pc detail).off = s.off := by
  unfold State.programError; (repeat' split) <;> simp

@[simp] theorem State.trigger_keeps (s : State) (n core : Nat) (t : Trig) (eng ctx pc detail : Nat) :
    (State.trigger s n core t eng ctx pc detail).pending = s.pending ∧ (State.trigger s n core t eng ctx pc detail).fuse = s.fuse ∧ (State.trigger s n core t eng ctx pc detail).flash = s.flash ∧ (State.trigger s n core t eng ctx pc detail).near = s.near ∧ (State.trigger s n core t eng ctx pc detail).off = s.off := by
  unfold State.trigger; (repeat' split) <;> simp

@[simp] theorem State.overflow_keeps (s : State) (n core g eng ctx pc : Nat) :
    (State.overflow s n core g eng ctx pc).pending = s.pending ∧ (State.overflow s n core g eng ctx pc).fuse = s.fuse ∧ (State.overflow s n core g eng ctx pc).flash = s.flash ∧ (State.overflow s n core g eng ctx pc).near = s.near ∧ (State.overflow s n core g eng ctx pc).off = s.off := by
  unfold State.overflow; (repeat' split) <;> simp

@[simp] theorem State.enqueue_keeps (s : State) (p : Nat) (q : Queued) :
    (State.enqueue s p q).pending = s.pending ∧ (State.enqueue s p q).fuse = s.fuse ∧ (State.enqueue s p q).flash = s.flash ∧ (State.enqueue s p q).near = s.near ∧ (State.enqueue s p q).off = s.off := by
  simp [State.enqueue]

@[simp] theorem State.launchBy_keeps (s : State) (by_ : Option (Nat × Nat × Nat × Nat)) (f : Sys2Proof.Flit) :
    (State.launchBy s by_ f).pending = s.pending ∧ (State.launchBy s by_ f).fuse = s.fuse ∧ (State.launchBy s by_ f).flash = s.flash ∧ (State.launchBy s by_ f).near = s.near ∧ (State.launchBy s by_ f).off = s.off := by
  unfold State.launchBy; (repeat' split) <;> simp

@[simp] theorem State.launch_keeps (s : State) (f : Sys2Proof.Flit) :
    (State.launch s f).pending = s.pending ∧ (State.launch s f).fuse = s.fuse ∧ (State.launch s f).flash = s.flash ∧ (State.launch s f).near = s.near ∧ (State.launch s f).off = s.off := by
  unfold State.launch; (repeat' split) <;> simp

@[simp] theorem State.sendCtl_keeps (s : State) (kind dchip : Nat) (info : List Int) :
    (State.sendCtl s kind dchip info).pending = s.pending ∧ (State.sendCtl s kind dchip info).fuse = s.fuse ∧ (State.sendCtl s kind dchip info).flash = s.flash ∧ (State.sendCtl s kind dchip info).near = s.near ∧ (State.sendCtl s kind dchip info).off = s.off := by
  unfold State.sendCtl; (repeat' split) <;> simp

@[simp] theorem State.sendOpen_keeps (s : State) (by_ : Option (Nat × Nat × Nat × Nat)) (typ dchip addr : Nat) (data : List PNt) :
    (State.sendOpen s by_ typ dchip addr data).pending = s.pending ∧ (State.sendOpen s by_ typ dchip addr data).fuse = s.fuse ∧ (State.sendOpen s by_ typ dchip addr data).flash = s.flash ∧ (State.sendOpen s by_ typ dchip addr data).near = s.near ∧ (State.sendOpen s by_ typ dchip addr data).off = s.off := by
  simp [State.sendOpen]

@[simp] theorem State.sendSched_keeps (s : State) (typ dchip flow word due : Nat) (data : List PNt) :
    (State.sendSched s typ dchip flow word due data).pending = s.pending ∧ (State.sendSched s typ dchip flow word due data).fuse = s.fuse ∧ (State.sendSched s typ dchip flow word due data).flash = s.flash ∧ (State.sendSched s typ dchip flow word due data).near = s.near ∧ (State.sendSched s typ dchip flow word due data).off = s.off := by
  simp [State.sendSched]

@[simp] theorem State.returnCredit_keeps (s : State) (chip core endn words due : Nat) :
    (State.returnCredit s chip core endn words due).pending = s.pending ∧ (State.returnCredit s chip core endn words due).fuse = s.fuse ∧ (State.returnCredit s chip core endn words due).flash = s.flash ∧ (State.returnCredit s chip core endn words due).near = s.near ∧ (State.returnCredit s chip core endn words due).off = s.off := by
  simp [State.returnCredit]

@[simp] theorem State.returnComb_keeps (s : State) (core q sources due : Nat) :
    (State.returnComb s core q sources due).pending = s.pending ∧ (State.returnComb s core q sources due).fuse = s.fuse ∧ (State.returnComb s core q sources due).flash = s.flash ∧ (State.returnComb s core q sources due).near = s.near ∧ (State.returnComb s core q sources due).off = s.off := by
  simp [State.returnComb]

@[simp] theorem State.effect_keeps (n c : Nat) (s : State) (e : Eff) :
    (State.effect n c s e).pending = s.pending ∧ (State.effect n c s e).fuse = s.fuse ∧ (State.effect n c s e).flash = s.flash ∧ (State.effect n c s e).near = s.near ∧ (State.effect n c s e).off = s.off := by
  unfold State.effect; (repeat' split) <;> simp

@[simp] theorem State.effects_keeps (s : State) (c : Nat) (l : List Eff) :
    (State.effects s c l).pending = s.pending ∧ (State.effects s c l).fuse = s.fuse ∧ (State.effects s c l).flash = s.flash ∧ (State.effects s c l).near = s.near ∧ (State.effects s c l).off = s.off := by
  simp [State.effects]

@[simp] theorem State.effectAt_keeps (n c : Nat) (s : State) (e : Nat × Eff) :
    (State.effectAt n c s e).pending = s.pending ∧ (State.effectAt n c s e).fuse = s.fuse ∧ (State.effectAt n c s e).flash = s.flash ∧ (State.effectAt n c s e).near = s.near ∧ (State.effectAt n c s e).off = s.off := by
  simp [State.effectAt]

@[simp] theorem State.effectsAt_keeps (s : State) (c : Nat) (l : List (Nat × Eff)) :
    (State.effectsAt s c l).pending = s.pending ∧ (State.effectsAt s c l).fuse = s.fuse ∧ (State.effectsAt s c l).flash = s.flash ∧ (State.effectsAt s c l).near = s.near ∧ (State.effectsAt s c l).off = s.off := by
  simp [State.effectsAt]

@[simp] theorem State.sendRecord_keeps (s : State) (digest c : Nat) (e : MEnd) (d : Send) :
    (State.sendRecord s digest c e d).pending = s.pending ∧ (State.sendRecord s digest c e d).fuse = s.fuse ∧ (State.sendRecord s digest c e d).flash = s.flash ∧ (State.sendRecord s digest c e d).near = s.near ∧ (State.sendRecord s digest c e d).off = s.off := by
  simp [State.sendRecord]

@[simp] theorem State.shipOne_keeps (c : Nat) (s : State) (d : Send) :
    (State.shipOne c s d).pending = s.pending ∧ (State.shipOne c s d).fuse = s.fuse ∧ (State.shipOne c s d).flash = s.flash ∧ (State.shipOne c s d).near = s.near ∧ (State.shipOne c s d).off = s.off := by
  unfold State.shipOne; (repeat' split) <;> simp

@[simp] theorem State.ship_keeps (s : State) (c : Nat) :
    (State.ship s c).pending = s.pending ∧ (State.ship s c).fuse = s.fuse ∧ (State.ship s c).flash = s.flash ∧ (State.ship s c).near = s.near ∧ (State.ship s c).off = s.off := by
  simp [State.ship]

@[simp] theorem State.take_keeps (s : State) (c : Nat) (x : Cx) :
    (State.take s c x).pending = s.pending ∧ (State.take s c x).fuse = s.fuse ∧ (State.take s c x).flash = s.flash ∧ (State.take s c x).near = s.near ∧ (State.take s c x).off = s.off := by
  unfold State.take; (repeat' split) <;> simp

@[simp] theorem State.supply_keeps (s : State) (c : Nat) :
    (State.supply s c).pending = s.pending ∧ (State.supply s c).fuse = s.fuse ∧ (State.supply s c).flash = s.flash ∧ (State.supply s c).near = s.near ∧ (State.supply s c).off = s.off := by
  simp [State.supply]

@[simp] theorem State.catchUp_keeps (t : Nat) (s : State) (k : Nat) :
    (State.catchUp t s k).pending = s.pending ∧ (State.catchUp t s k).fuse = s.fuse ∧ (State.catchUp t s k).flash = s.flash ∧ (State.catchUp t s k).near = s.near ∧ (State.catchUp t s k).off = s.off := by
  simp [State.catchUp]

@[simp] theorem State.together_keeps (c : Nat) (f : Env → Cx → Cx) (n : Nat) (s : State) :
    (State.together c f n s).pending = s.pending ∧ (State.together c f n s).fuse = s.fuse ∧ (State.together c f n s).flash = s.flash ∧ (State.together c f n s).near = s.near ∧ (State.together c f n s).off = s.off := by
  induction n generalizing s with
  | zero => simp [State.together]
  | succ n ih => unfold State.together; (repeat' split) <;> simp [ih]

@[simp] theorem State.work_keeps (s : State) (c : Nat) (f : Env → Cx → Cx) :
    (State.work s c f).pending = s.pending ∧ (State.work s c f).fuse = s.fuse ∧ (State.work s c f).flash = s.flash ∧ (State.work s c f).near = s.near ∧ (State.work s c f).off = s.off := by
  simp [State.work]

@[simp] theorem State.runProg_keeps (s : State) (n : Nat) :
    (State.runProg s n).pending = s.pending ∧ (State.runProg s n).fuse = s.fuse ∧ (State.runProg s n).flash = s.flash ∧ (State.runProg s n).near = s.near ∧ (State.runProg s n).off = s.off := by
  unfold State.runProg; (repeat' split) <;> simp

@[simp] theorem State.runAll_keeps (s : State) :
    (State.runAll s).pending = s.pending ∧ (State.runAll s).fuse = s.fuse ∧ (State.runAll s).flash = s.flash ∧ (State.runAll s).near = s.near ∧ (State.runAll s).off = s.off := by
  simp [State.runAll]

@[simp] theorem State.tick_keeps (s0 : State) :
    (State.tick s0).pending = s0.pending ∧ (State.tick s0).fuse = s0.fuse ∧ (State.tick s0).flash = s0.flash ∧ (State.tick s0).near = s0.near ∧ (State.tick s0).off = s0.off := by
  simp [State.tick]

@[simp] theorem State.passTo_keeps (s : State) (t : Nat) :
    (State.passTo s t).pending = s.pending ∧ (State.passTo s t).fuse = s.fuse ∧ (State.passTo s t).flash = s.flash ∧ (State.passTo s t).near = s.near ∧ (State.passTo s t).off = s.off := by
  simp [State.passTo]

@[simp] theorem State.outside_keeps (s : State) (c : Nat) (f : Env → Cx → Cx) :
    (State.outside s c f).pending = s.pending ∧ (State.outside s c f).fuse = s.fuse ∧ (State.outside s c f).flash = s.flash ∧ (State.outside s c f).near = s.near ∧ (State.outside s c f).off = s.off := by
  simp [State.outside]

@[simp] theorem State.bring_keeps (s : State) (c t : Nat) :
    (State.bring s c t).pending = s.pending ∧ (State.bring s c t).fuse = s.fuse ∧ (State.bring s c t).flash = s.flash ∧ (State.bring s c t).near = s.near ∧ (State.bring s c t).off = s.off := by
  simp [State.bring]

@[simp] theorem State.passToRest_keeps (s : State) (k : Nat) :
    (State.passToRest s k).pending = s.pending ∧ (State.passToRest s k).fuse = s.fuse ∧ (State.passToRest s k).flash = s.flash ∧ (State.passToRest s k).near = s.near ∧ (State.passToRest s k).off = s.off := by
  unfold State.passToRest; (repeat' split) <;> simp

@[simp] theorem State.holdNear_keeps (s : State) (k n : Nat) :
    (State.holdNear s k n).pending = s.pending ∧ (State.holdNear s k n).fuse = s.fuse ∧ (State.holdNear s k n).flash = s.flash ∧ (State.holdNear s k n).near = s.near ∧ (State.holdNear s k n).off = s.off := by
  unfold State.holdNear; (repeat' split) <;> simp

@[simp] theorem State.readAgain_keeps (s : State) (a stall : Nat) :
    (State.readAgain s a stall).pending = s.pending ∧ (State.readAgain s a stall).fuse = s.fuse ∧ (State.readAgain s a stall).flash = s.flash ∧ (State.readAgain s a stall).near = s.near ∧ (State.readAgain s a stall).off = s.off := by
  simp [State.readAgain]

@[simp] theorem State.flight_keeps (s : State) (a : Nat) (g : Nat → PNt → PNt) :
    (State.flight s a g).pending = s.pending ∧ (State.flight s a g).fuse = s.fuse ∧ (State.flight s a g).flash = s.flash ∧ (State.flight s a g).near = s.near ∧ (State.flight s a g).off = s.off := by
  simp [State.flight]

@[simp] theorem State.poisonBlock_keeps (s : State) (a : Nat) :
    (State.poisonBlock s a).pending = s.pending ∧ (State.poisonBlock s a).fuse = s.fuse ∧ (State.poisonBlock s a).flash = s.flash ∧ (State.poisonBlock s a).near = s.near ∧ (State.poisonBlock s a).off = s.off := by
  simp [State.poisonBlock]

@[simp] theorem State.fromMirror_keeps (s : State) (a : Nat) (ok : Bool) (stall : Nat) :
    (State.fromMirror s a ok stall).pending = s.pending ∧ (State.fromMirror s a ok stall).fuse = s.fuse ∧ (State.fromMirror s a ok stall).flash = s.flash ∧ (State.fromMirror s a ok stall).near = s.near ∧ (State.fromMirror s a ok stall).off = s.off := by
  simp only [State.fromMirror]; (repeat' split) <;> simp

@[simp] theorem State.badBlock_keeps (s : State) (a : Nat) (b : BadBlock) :
    (State.badBlock s a b).pending = s.pending ∧ (State.badBlock s a b).fuse = s.fuse ∧ (State.badBlock s a b).flash = s.flash ∧ (State.badBlock s a b).near = s.near ∧ (State.badBlock s a b).off = s.off := by
  unfold State.badBlock; (repeat' split) <;> simp

@[simp] theorem State.checkedRead_keeps (s : State) (a n : Nat) (f : ReadFault) :
    (State.checkedRead s a n f).1.pending = s.pending ∧ (State.checkedRead s a n f).1.fuse = s.fuse ∧ (State.checkedRead s a n f).1.flash = s.flash ∧ (State.checkedRead s a n f).1.near = s.near ∧ (State.checkedRead s a n f).1.off = s.off := by
  have key : ∀ (l : List (Nat × BadBlock)) (r : State × Bool),
      (l.foldl (fun r e => (r.1.badBlock e.1 e.2, r.2 || r.1.deliversBad e.1 e.2)) r).1.pending = r.1.pending ∧
      (l.foldl (fun r e => (r.1.badBlock e.1 e.2, r.2 || r.1.deliversBad e.1 e.2)) r).1.fuse = r.1.fuse ∧
      (l.foldl (fun r e => (r.1.badBlock e.1 e.2, r.2 || r.1.deliversBad e.1 e.2)) r).1.flash = r.1.flash ∧
      (l.foldl (fun r e => (r.1.badBlock e.1 e.2, r.2 || r.1.deliversBad e.1 e.2)) r).1.near = r.1.near ∧
      (l.foldl (fun r e => (r.1.badBlock e.1 e.2, r.2 || r.1.deliversBad e.1 e.2)) r).1.off = r.1.off := by
    intro l
    induction l with
    | nil => intro r; exact ⟨rfl, rfl, rfl, rfl, rfl⟩
    | cons a l ih => intro r; simpa using ih (r.1.badBlock a.1 a.2, r.2 || r.1.deliversBad a.1 a.2)
  exact key _ _

@[simp] theorem State.clearLatent_keeps (s : State) (a n : Nat) :
    (State.clearLatent s a n).pending = s.pending ∧ (State.clearLatent s a n).fuse = s.fuse ∧ (State.clearLatent s a n).flash = s.flash ∧ (State.clearLatent s a n).near = s.near ∧ (State.clearLatent s a n).off = s.off := by
  simp [State.clearLatent]

@[simp] theorem State.latentRead_keeps (s : State) (a n : Nat) :
    (State.latentRead s a n).1.pending = s.pending ∧ (State.latentRead s a n).1.fuse = s.fuse ∧ (State.latentRead s a n).1.flash = s.flash ∧ (State.latentRead s a n).1.near = s.near ∧ (State.latentRead s a n).1.off = s.off := by
  simp only [State.latentRead]; (repeat' split) <;> simp

@[simp] theorem State.partWrite_keeps (s : State) (a n : Nat) (f : ReadFault) :
    (State.partWrite s a n f).pending = s.pending ∧ (State.partWrite s a n f).fuse = s.fuse ∧ (State.partWrite s a n f).flash = s.flash ∧ (State.partWrite s a n f).near = s.near ∧ (State.partWrite s a n f).off = s.off := by
  simp [State.partWrite]

@[simp] theorem State.bgWait_keeps (s : State) (k : Nat) :
    (State.bgWait s k).pending = s.pending ∧ (State.bgWait s k).fuse = s.fuse ∧ (State.bgWait s k).flash = s.flash ∧ (State.bgWait s k).near = s.near ∧ (State.bgWait s k).off = s.off := by
  simp [State.bgWait]

@[simp] theorem State.bgSlot_keeps (s : State) (k : Nat) :
    (State.bgSlot s k).pending = s.pending ∧ (State.bgSlot s k).fuse = s.fuse ∧ (State.bgSlot s k).flash = s.flash ∧ (State.bgSlot s k).near = s.near ∧ (State.bgSlot s k).off = s.off := by
  simp [State.bgSlot]

@[simp] theorem State.bgPiece_keeps (k off : Nat) (s : State) (e : List PNt × Nat) :
    (State.bgPiece k off s e).pending = s.pending ∧ (State.bgPiece k off s e).fuse = s.fuse ∧ (State.bgPiece k off s e).flash = s.flash ∧ (State.bgPiece k off s e).near = s.near ∧ (State.bgPiece k off s e).off = s.off := by
  simp [State.bgPiece]

@[simp] theorem State.bgPieces_keeps (s : State) (k off : Nat) (data : List PNt) :
    (State.bgPieces s k off data).pending = s.pending ∧ (State.bgPieces s k off data).fuse = s.fuse ∧ (State.bgPieces s k off data).flash = s.flash ∧ (State.bgPieces s k off data).near = s.near ∧ (State.bgPieces s k off data).off = s.off := by
  simp [State.bgPieces]

@[simp] theorem State.bgWrite_keeps (s : State) (k off : Nat) (since : Option Nat) (data : List PNt) :
    (State.bgWrite s k off since data).1.pending = s.pending ∧ (State.bgWrite s k off since data).1.fuse = s.fuse ∧ (State.bgWrite s k off since data).1.flash = s.flash ∧ (State.bgWrite s k off since data).1.near = s.near ∧ (State.bgWrite s k off since data).1.off = s.off := by
  simp only [State.bgWrite]; (repeat' split) <;> simp

@[simp] theorem State.bgFetch_keeps (k off n : Nat) (r : State × List PNt) (j : Nat) :
    (State.bgFetch k off n r j).1.pending = r.1.pending ∧ (State.bgFetch k off n r j).1.fuse = r.1.fuse ∧ (State.bgFetch k off n r j).1.flash = r.1.flash ∧ (State.bgFetch k off n r j).1.near = r.1.near ∧ (State.bgFetch k off n r j).1.off = r.1.off := by
  simp [State.bgFetch]

@[simp] theorem State.bgFetches_keep (k off n : Nat) (l : List Nat) (r : State × List PNt) :
    (l.foldl (State.bgFetch k off n) r).1.pending = r.1.pending ∧ (l.foldl (State.bgFetch k off n) r).1.fuse = r.1.fuse ∧ (l.foldl (State.bgFetch k off n) r).1.flash = r.1.flash ∧ (l.foldl (State.bgFetch k off n) r).1.near = r.1.near ∧ (l.foldl (State.bgFetch k off n) r).1.off = r.1.off := by
  induction l generalizing r with
  | nil => simp
  | cons a l ih => simp [ih]

@[simp] theorem State.bgRead_keeps (s t : State) (k off n : Nat) (since : Option Nat) (d : List PNt) (h : s.bgRead k off n since = some (t, d)) :
    t.pending = s.pending ∧ t.fuse = s.fuse ∧ t.flash = s.flash ∧ t.near = s.near ∧ t.off = s.off := by
  unfold State.bgRead at h
  simp only at h
  split at h
  · injection h with h
    have := State.bgFetches_keep k off n (List.range (cdiv n 144)) (s, [])
    rw [h] at this; exact this
  · cases h

@[simp] theorem State.serveHere_keeps (s : State) (l n : Nat) (since : Option Nat) (fault : ReadFault) :
    (s.serveHere l n since fault).s.pending = s.pending ∧ (s.serveHere l n since fault).s.fuse = s.fuse ∧ (s.serveHere l n since fault).s.flash = s.flash ∧ (s.serveHere l n since fault).s.near = s.near ∧ (s.serveHere l n since fault).s.off = s.off := by
  dsimp only [State.serveHere]
  split
  · simp
  · split
    · simp
    · split
      · split
        · rename_i h; exact State.bgRead_keeps _ _ _ _ _ _ _ h
        · simp
      · simp

@[simp] theorem State.serve_keeps (s : State) (src n : Nat) (since : Option Nat) (fault : ReadFault) (ext : List PNt) :
    (s.serve src n since fault ext).s.pending = s.pending ∧ (s.serve src n since fault ext).s.fuse = s.fuse ∧ (s.serve src n since fault ext).s.flash = s.flash ∧ (s.serve src n since fault ext).s.near = s.near ∧ (s.serve src n since fault ext).s.off = s.off := by
  dsimp only [State.serve]; (repeat' split) <;> simp

@[simp] theorem State.grant_keeps (s : State) (k idx : Nat) (w : Word) :
    (State.grant s k idx w).1.pending = s.pending ∧ (State.grant s k idx w).1.fuse = s.fuse ∧ (State.grant s k idx w).1.flash = s.flash ∧ (State.grant s k idx w).1.near = s.near ∧ (State.grant s k idx w).1.off = s.off := by
  simp only [State.grant]; (repeat' split) <;> simp

@[simp] theorem State.landStore_keeps (s : State) (dst : Nat) (since : Option Nat) (fault : ReadFault) (data : List PNt) :
    (State.landStore s dst since fault data).1.pending = s.pending ∧ (State.landStore s dst since fault data).1.fuse = s.fuse ∧ (State.landStore s dst since fault data).1.flash = s.flash ∧ (State.landStore s dst since fault data).1.near = s.near ∧ (State.landStore s dst since fault data).1.off = s.off := by
  simp only [State.landStore]; (repeat' split) <;> simp

@[simp] theorem State.beginEntry_keeps (s : State) (e : Entry) :
    (State.beginEntry s e).pending = s.pending ∧ (State.beginEntry s e).fuse = s.fuse ∧ (State.beginEntry s e).flash = s.flash ∧ (State.beginEntry s e).near = s.near ∧ (State.beginEntry s e).off = s.off := by
  simp [State.beginEntry]

@[simp] theorem State.answer_keeps (s : State) (e : Entry) (status : Nat) (value : Option Nat) :
    (State.answer s e status value).pending = s.pending ∧ (State.answer s e status value).fuse = s.fuse ∧ (State.answer s e status value).flash = s.flash ∧ (State.answer s e status value).near = s.near ∧ (State.answer s e status value).off = s.off := by
  simp [State.answer]

@[simp] theorem State.queueError_keeps (s : State) (q : Nat) :
    (State.queueError s q).pending = s.pending ∧ (State.queueError s q).fuse = s.fuse ∧ (State.queueError s q).flash = s.flash ∧ (State.queueError s q).near = s.near ∧ (State.queueError s q).off = s.off := by
  simp [State.queueError]

@[simp] theorem State.output_keeps (s : State) (i : Nat) (d : Sess) (status value : Nat) :
    (State.output s i d status value).pending = s.pending ∧ (State.output s i d status value).fuse = s.fuse ∧ (State.output s i d status value).flash = s.flash ∧ (State.output s i d status value).near = s.near ∧ (State.output s i d status value).off = s.off := by
  simp [State.output]

@[simp] theorem State.applyRecord_keeps (b : Batch) (tick : Nat) (s : State) (slot : Nat) (i gen : Nat) :
    (State.applyRecord b tick s slot i gen).pending = s.pending ∧ (State.applyRecord b tick s slot i gen).fuse = s.fuse ∧ (State.applyRecord b tick s slot i gen).flash = s.flash ∧ (State.applyRecord b tick s slot i gen).near = s.near ∧ (State.applyRecord b tick s slot i gen).off = s.off := by
  simp only [State.applyRecord]; (repeat' split) <;> simp

@[simp] theorem State.applyRecords_keeps (s : State) (p : Prog) (b : Batch) (tick : Nat) :
    (State.applyRecords s p b tick).pending = s.pending ∧ (State.applyRecords s p b tick).fuse = s.fuse ∧ (State.applyRecords s p b tick).flash = s.flash ∧ (State.applyRecords s p b tick).near = s.near ∧ (State.applyRecords s p b tick).off = s.off := by
  simp [State.applyRecords]

@[simp] theorem State.countMisses_keeps (s : State) (b : Batch) (tick : Nat) :
    (State.countMisses s b tick).pending = s.pending ∧ (State.countMisses s b tick).fuse = s.fuse ∧ (State.countMisses s b tick).flash = s.flash ∧ (State.countMisses s b tick).near = s.near ∧ (State.countMisses s b tick).off = s.off := by
  simp [State.countMisses]

@[simp] theorem State.writeBatch_keeps (s : State) (b : Batch) (ws : List Word) :
    (State.writeBatch s b ws).pending = s.pending ∧ (State.writeBatch s b ws).fuse = s.fuse ∧ (State.writeBatch s b ws).flash = s.flash ∧ (State.writeBatch s b ws).near = s.near ∧ (State.writeBatch s b ws).off = s.off := by
  simp [State.writeBatch]

@[simp] theorem State.selectBatch_keeps (s : State) (n : Nat) (step tick : Nat) :
    (State.selectBatch s n step tick).pending = s.pending ∧ (State.selectBatch s n step tick).fuse = s.fuse ∧ (State.selectBatch s n step tick).flash = s.flash ∧ (State.selectBatch s n step tick).near = s.near ∧ (State.selectBatch s n step tick).off = s.off := by
  unfold State.selectBatch; split
  · simp
  · split
    · simp
    · simp only [State.bump_keeps, State.updProg_keeps, State.writeBatch_keeps]
      refine ⟨?_, ?_, ?_, ?_, ?_⟩
      · exact foldl_pending _ _ _ fun s x => by (repeat' split) <;> simp
      · exact foldl_fuse _ _ _ fun s x => by (repeat' split) <;> simp
      · exact foldl_flash _ _ _ fun s x => by (repeat' split) <;> simp
      · exact foldl_near _ _ _ fun s x => by (repeat' split) <;> simp
      · exact foldl_off _ _ _ fun s x => by (repeat' split) <;> simp

@[simp] theorem State.sequence_keeps (s : State) (n step : Nat) :
    (State.sequence s n step).pending = s.pending ∧ (State.sequence s n step).fuse = s.fuse ∧ (State.sequence s n step).flash = s.flash ∧ (State.sequence s n step).near = s.near ∧ (State.sequence s n step).off = s.off := by
  unfold State.sequence; (repeat' split) <;> simp

@[simp] theorem State.loseTime_keeps (s : State) (p : Nat) :
    (State.loseTime s p).pending = s.pending ∧ (State.loseTime s p).fuse = s.fuse ∧ (State.loseTime s p).flash = s.flash ∧ (State.loseTime s p).near = s.near ∧ (State.loseTime s p).off = s.off := by
  simp [State.loseTime]

@[simp] theorem State.restartJport_keeps (s : State) (p : Nat) :
    (State.restartJport s p).pending = s.pending ∧ (State.restartJport s p).fuse = s.fuse ∧ (State.restartJport s p).flash = s.flash ∧ (State.restartJport s p).near = s.near ∧ (State.restartJport s p).off = s.off := by
  simp [State.restartJport]

@[simp] theorem State.restartJports_keeps (s : State) :
    (State.restartJports s).pending = s.pending ∧ (State.restartJports s).fuse = s.fuse ∧ (State.restartJports s).flash = s.flash ∧ (State.restartJports s).near = s.near ∧ (State.restartJports s).off = s.off := by
  simp [State.restartJports]

@[simp] theorem State.setHport_keeps (s : State) (p : Nat) (h : HPort) :
    (State.setHport s p h).pending = s.pending ∧ (State.setHport s p h).fuse = s.fuse ∧ (State.setHport s p h).flash = s.flash ∧ (State.setHport s p h).near = s.near ∧ (State.setHport s p h).off = s.off := by
  simp [State.setHport]

@[simp] theorem State.restartHports_keeps (s : State) :
    (State.restartHports s).pending = s.pending ∧ (State.restartHports s).fuse = s.fuse ∧ (State.restartHports s).flash = s.flash ∧ (State.restartHports s).near = s.near ∧ (State.restartHports s).off = s.off := by
  simp [State.restartHports]

@[simp] theorem State.dropWarm_keeps (s : State) (drop : OdCls → Bool) :
    (State.dropWarm s drop).pending = s.pending ∧ (State.dropWarm s drop).fuse = s.fuse ∧ (State.dropWarm s drop).flash = s.flash ∧ (State.dropWarm s drop).near = s.near ∧ (State.dropWarm s drop).off = s.off := by
  simp [State.dropWarm]

@[simp] theorem State.calibrate_keeps (s : State) :
    (State.calibrate s).pending = s.pending ∧ (State.calibrate s).fuse = s.fuse ∧ (State.calibrate s).flash = s.flash ∧ (State.calibrate s).near = s.near ∧ (State.calibrate s).off = s.off := by
  simp [State.calibrate]

@[simp] theorem State.recordReset_keeps (s : State) (kind : Nat) :
    (State.recordReset s kind).pending = s.pending ∧ (State.recordReset s kind).fuse = s.fuse ∧ (State.recordReset s kind).flash = s.flash ∧ (State.recordReset s kind).near = s.near ∧ (State.recordReset s kind).off = s.off := by
  simp [State.recordReset]

@[simp] theorem State.resetCores_keeps (s : State) :
    (State.resetCores s).pending = s.pending ∧ (State.resetCores s).fuse = s.fuse ∧ (State.resetCores s).flash = s.flash ∧ (State.resetCores s).near = s.near ∧ (State.resetCores s).off = s.off := by
  simp [State.resetCores]

@[simp] theorem State.resetCounts_keeps (s : State) :
    (State.resetCounts s).pending = s.pending ∧ (State.resetCounts s).fuse = s.fuse ∧ (State.resetCounts s).flash = s.flash ∧ (State.resetCounts s).near = s.near ∧ (State.resetCounts s).off = s.off := by
  simp [State.resetCounts]

@[simp] theorem State.failTable_keeps (s : State) (i : Nat) :
    (State.failTable s i).pending = s.pending ∧ (State.failTable s i).fuse = s.fuse ∧ (State.failTable s i).flash = s.flash ∧ (State.failTable s i).near = s.near ∧ (State.failTable s i).off = s.off := by
  simp [State.failTable]

@[simp] theorem State.rebuild_keeps (s : State) :
    (State.rebuild s).pending = s.pending ∧ (State.rebuild s).fuse = s.fuse ∧ (State.rebuild s).flash = s.flash ∧ (State.rebuild s).near = s.near ∧ (State.rebuild s).off = s.off := by
  simp [State.rebuild]

@[simp] theorem State.syncMirrors_keeps (s : State) :
    (State.syncMirrors s).pending = s.pending ∧ (State.syncMirrors s).fuse = s.fuse ∧ (State.syncMirrors s).flash = s.flash ∧ (State.syncMirrors s).near = s.near ∧ (State.syncMirrors s).off = s.off := by
  simp [State.syncMirrors]

@[simp] theorem State.loseWindows_keeps (s : State) :
    (State.loseWindows s).pending = s.pending ∧ (State.loseWindows s).fuse = s.fuse ∧ (State.loseWindows s).flash = s.flash ∧ (State.loseWindows s).near = s.near ∧ (State.loseWindows s).off = s.off := by
  simp [State.loseWindows]

@[simp] theorem State.escalatePrograms_keeps (s : State) :
    (State.escalatePrograms s).pending = s.pending ∧ (State.escalatePrograms s).fuse = s.fuse ∧ (State.escalatePrograms s).flash = s.flash ∧ (State.escalatePrograms s).near = s.near ∧ (State.escalatePrograms s).off = s.off := by
  unfold State.escalatePrograms; refine ⟨?_, ?_, ?_, ?_, ?_⟩
  · exact foldl_pending _ _ _ fun s x => by split <;> simp
  · exact foldl_fuse _ _ _ fun s x => by split <;> simp
  · exact foldl_flash _ _ _ fun s x => by split <;> simp
  · exact foldl_near _ _ _ fun s x => by split <;> simp
  · exact foldl_off _ _ _ fun s x => by split <;> simp

@[simp] theorem State.discardPrograms_keeps (s : State) :
    (State.discardPrograms s).pending = s.pending ∧ (State.discardPrograms s).fuse = s.fuse ∧ (State.discardPrograms s).flash = s.flash ∧ (State.discardPrograms s).near = s.near ∧ (State.discardPrograms s).off = s.off := by
  simp [State.discardPrograms]

@[simp] theorem State.dropCmds_keeps (s : State) :
    (State.dropCmds s).pending = s.pending ∧ (State.dropCmds s).fuse = s.fuse ∧ (State.dropCmds s).flash = s.flash ∧ (State.dropCmds s).near = s.near ∧ (State.dropCmds s).off = s.off := by
  simp [State.dropCmds]

@[simp] theorem State.warmQueue_keeps (s : State) (q : Nat) :
    (State.warmQueue s q).pending = s.pending ∧ (State.warmQueue s q).fuse = s.fuse ∧ (State.warmQueue s q).flash = s.flash ∧ (State.warmQueue s q).near = s.near ∧ (State.warmQueue s q).off = s.off := by
  simp [State.warmQueue]

@[simp] theorem State.clearBacklog_keeps (s : State) :
    (State.clearBacklog s).pending = s.pending ∧ (State.clearBacklog s).fuse = s.fuse ∧ (State.clearBacklog s).flash = s.flash ∧ (State.clearBacklog s).near = s.near ∧ (State.clearBacklog s).off = s.off := by
  simp [State.clearBacklog]

@[simp] theorem State.warmReset_keeps (s : State) (kind : Nat) :
    (State.warmReset s kind).pending = s.pending ∧ (State.warmReset s kind).fuse = s.fuse ∧ (State.warmReset s kind).flash = s.flash ∧ (State.warmReset s kind).near = s.near ∧ (State.warmReset s kind).off = s.off := by
  simp [State.warmReset]

@[simp] theorem State.tellMembers_keeps (s : State) :
    (State.tellMembers s).pending = s.pending ∧ (State.tellMembers s).fuse = s.fuse ∧ (State.tellMembers s).flash = s.flash ∧ (State.tellMembers s).near = s.near ∧ (State.tellMembers s).off = s.off := by
  simp [State.tellMembers]

@[simp] theorem State.escalate_keeps (s : State) (e : Event) (kind : Nat) :
    (State.escalate s e kind).pending = s.pending ∧ (State.escalate s e kind).fuse = s.fuse ∧ (State.escalate s e kind).flash = s.flash ∧ (State.escalate s e kind).near = s.near ∧ (State.escalate s e kind).off = s.off := by
  simp [State.escalate]

@[simp] theorem State.escalateChip_keeps (s : State) (code core detail : Nat) :
    (State.escalateChip s code core detail).pending = s.pending ∧ (State.escalateChip s code core detail).fuse = s.fuse ∧ (State.escalateChip s code core detail).flash = s.flash ∧ (State.escalateChip s code core detail).near = s.near ∧ (State.escalateChip s code core detail).off = s.off := by
  simp [State.escalateChip]

@[simp] theorem State.coreReset_keeps (s : State) :
    (State.coreReset s).pending = s.pending ∧ (State.coreReset s).fuse = s.fuse ∧ (State.coreReset s).flash = s.flash ∧ (State.coreReset s).near = s.near ∧ (State.coreReset s).off = s.off := by
  simp [State.coreReset]

@[simp] theorem State.startDomains_keeps (s : State) :
    (State.startDomains s).pending = s.pending ∧ (State.startDomains s).fuse = s.fuse ∧ (State.startDomains s).flash = s.flash ∧ (State.startDomains s).near = s.near ∧ (State.startDomains s).off = s.off := by
  simp [State.startDomains]

@[simp] theorem State.coldClear_keeps (s : State) (kind : Nat) :
    (State.coldClear s kind).pending = s.pending ∧ (State.coldClear s kind).fuse = s.fuse ∧ (State.coldClear s kind).flash = s.flash ∧ (State.coldClear s kind).near = s.near ∧ (State.coldClear s kind).off = s.off := by
  simp [State.coldClear]

@[simp] theorem State.coldReset_keeps (s : State) :
    (State.coldReset s).pending = s.pending ∧ (State.coldReset s).fuse = s.fuse ∧ (State.coldReset s).flash = s.flash ∧ (State.coldReset s).near = s.near ∧ (State.coldReset s).off = s.off := by
  simp [State.coldReset]

@[simp] theorem State.hold_keeps (s : State) (reason : Nat) :
    (State.hold s reason).pending = s.pending ∧ (State.hold s reason).fuse = s.fuse ∧ (State.hold s reason).flash = s.flash ∧ (State.hold s reason).near = s.near ∧ (State.hold s reason).off = s.off := by
  simp [State.hold]

@[simp] theorem State.unhold_keeps (s : State) (reason : Nat) :
    (State.unhold s reason).pending = s.pending ∧ (State.unhold s reason).fuse = s.fuse ∧ (State.unhold s reason).flash = s.flash ∧ (State.unhold s reason).near = s.near ∧ (State.unhold s reason).off = s.off := by
  simp [State.unhold]

@[simp] theorem State.powerOn_keeps (s : State) :
    (State.powerOn s).pending = s.pending ∧ (State.powerOn s).fuse = s.fuse ∧ (State.powerOn s).flash = s.flash := by
  simp [State.powerOn]

@[simp] theorem State.railFault_keeps (s : State) (reason detail : Nat) :
    (State.railFault s reason detail).pending = s.pending ∧ (State.railFault s reason detail).fuse = s.fuse ∧ (State.railFault s reason detail).flash = s.flash ∧ (State.railFault s reason detail).near = s.near ∧ (State.railFault s reason detail).off = s.off := by
  simp [State.railFault]

@[simp] theorem State.park_keeps (s : State) :
    (State.park s).pending = s.pending ∧ (State.park s).fuse = s.fuse ∧ (State.park s).flash = s.flash ∧ (State.park s).near = s.near ∧ (State.park s).off = s.off := by
  simp [State.park]

@[simp] theorem State.standBy_keeps (s : State) :
    (State.standBy s).pending = s.pending ∧ (State.standBy s).fuse = s.fuse ∧ (State.standBy s).flash = s.flash ∧ (State.standBy s).near = s.near ∧ (State.standBy s).off = s.off := by
  simp [State.standBy]

@[simp] theorem State.wake_keeps (s : State) :
    (State.wake s).pending = s.pending ∧ (State.wake s).fuse = s.fuse ∧ (State.wake s).flash = s.flash ∧ (State.wake s).near = s.near ∧ (State.wake s).off = s.off := by
  simp [State.wake]

@[simp] theorem State.enterPower_keeps (s : State) (p : Nat) :
    (State.enterPower s p).pending = s.pending ∧ (State.enterPower s p).fuse = s.fuse ∧ (State.enterPower s p).flash = s.flash ∧ (State.enterPower s p).near = s.near ∧ (State.enterPower s p).off = s.off := by
  unfold State.enterPower; (repeat' split) <;> simp

@[simp] theorem State.beginExit_keeps (s : State) :
    (State.beginExit s).pending = s.pending ∧ (State.beginExit s).fuse = s.fuse ∧ (State.beginExit s).flash = s.flash ∧ (State.beginExit s).near = s.near ∧ (State.beginExit s).off = s.off := by
  simp [State.beginExit]

@[simp] theorem State.requestPower_keeps (s : State) (p : Nat) :
    (State.requestPower s p).pending = s.pending ∧ (State.requestPower s p).fuse = s.fuse ∧ (State.requestPower s p).flash = s.flash ∧ (State.requestPower s p).near = s.near ∧ (State.requestPower s p).off = s.off := by
  simp [State.requestPower]

@[simp] theorem State.restoreCore_keeps (s : State) (p : Prog) (core t : Nat) (k : CoreCopy) :
    (State.restoreCore s p core t k).pending = s.pending ∧ (State.restoreCore s p core t k).fuse = s.fuse ∧ (State.restoreCore s p core t k).flash = s.flash ∧ (State.restoreCore s p core t k).near = s.near ∧ (State.restoreCore s p core t k).off = s.off := by
  simp [State.restoreCore]

@[simp] theorem State.widenGroups_keeps (s : State) (cores groups : List Nat) :
    (State.widenGroups s cores groups).pending = s.pending ∧ (State.widenGroups s cores groups).fuse = s.fuse ∧ (State.widenGroups s cores groups).flash = s.flash ∧ (State.widenGroups s cores groups).near = s.near ∧ (State.widenGroups s cores groups).off = s.off := by
  simp [State.widenGroups]

@[simp] theorem State.recordAtCommit_keeps (s : State) (n : Nat) (p : Prog) :
    (State.recordAtCommit s n p).pending = s.pending ∧ (State.recordAtCommit s n p).fuse = s.fuse ∧ (State.recordAtCommit s n p).flash = s.flash ∧ (State.recordAtCommit s n p).near = s.near ∧ (State.recordAtCommit s n p).off = s.off := by
  unfold State.recordAtCommit; (repeat' split) <;> simp

@[simp] theorem State.placeRecord_keeps (s : State) (p : Prog) (r : StepRecord) :
    (State.placeRecord s p r).pending = s.pending ∧ (State.placeRecord s p r).fuse = s.fuse ∧ (State.placeRecord s p r).flash = s.flash ∧ (State.placeRecord s p r).near = s.near ∧ (State.placeRecord s p r).off = s.off := by
  simp [State.placeRecord]

@[simp] theorem State.beginReplay_keeps (s : State) (n : Nat) (p : Prog) (r : StepRecord) :
    (State.beginReplay s n p r).pending = s.pending ∧ (State.beginReplay s n p r).fuse = s.fuse ∧ (State.beginReplay s n p r).flash = s.flash ∧ (State.beginReplay s n p r).near = s.near ∧ (State.beginReplay s n p r).off = s.off := by
  simp [State.beginReplay]

@[simp] theorem State.vetAtBoundary_keeps (s : State) (n : Nat) :
    (State.vetAtBoundary s n).pending = s.pending ∧ (State.vetAtBoundary s n).fuse = s.fuse ∧ (State.vetAtBoundary s n).flash = s.flash ∧ (State.vetAtBoundary s n).near = s.near ∧ (State.vetAtBoundary s n).off = s.off := by
  unfold State.vetAtBoundary; (repeat' split) <;> simp

@[simp] theorem State.roomFound_keeps (s : State) (core : Nat) :
    (State.roomFound s core).pending = s.pending ∧ (State.roomFound s core).fuse = s.fuse ∧ (State.roomFound s core).flash = s.flash ∧ (State.roomFound s core).near = s.near ∧ (State.roomFound s core).off = s.off := by
  unfold State.roomFound; (repeat' split) <;> simp

@[simp] theorem State.sendRequest_keeps (s : State) (core cls : Nat) :
    (State.sendRequest s core cls).pending = s.pending ∧ (State.sendRequest s core cls).fuse = s.fuse ∧ (State.sendRequest s core cls).flash = s.flash ∧ (State.sendRequest s core cls).near = s.near ∧ (State.sendRequest s core cls).off = s.off := by
  simp only [State.sendRequest]; (repeat' split) <;> simp

@[simp] theorem State.sent_keeps (s : State) (c tid : Nat) (done : Bool) :
    (State.sent s c tid done).pending = s.pending ∧ (State.sent s c tid done).fuse = s.fuse ∧ (State.sent s c tid done).flash = s.flash ∧ (State.sent s c tid done).near = s.near ∧ (State.sent s c tid done).off = s.off := by
  simp [State.sent]

@[simp] theorem State.lightInStall_keeps (s : State) (core : Nat) (d : Send) (rest : List Send) :
    (State.lightInStall s core d rest).pending = s.pending ∧ (State.lightInStall s core d rest).fuse = s.fuse ∧ (State.lightInStall s core d rest).flash = s.flash ∧ (State.lightInStall s core d rest).near = s.near ∧ (State.lightInStall s core d rest).off = s.off := by
  simp [State.lightInStall]

@[simp] theorem State.landLight_keeps (s : State) (core src : Nat) (at_ : Nat) (data : List PNt) :
    (State.landLight s core src at_ data).pending = s.pending ∧ (State.landLight s core src at_ data).fuse = s.fuse ∧ (State.landLight s core src at_ data).flash = s.flash ∧ (State.landLight s core src at_ data).near = s.near ∧ (State.landLight s core src at_ data).off = s.off := by
  unfold State.landLight
  simp only
  split
  · simp
  · split
    · simp
    · rename_i t h
      have g := State.bgWrite_keeps s core ((s.core core).te.lightBase + 64 * src) (some at_) data
      rw [h] at g
      simpa using g

@[simp] theorem State.taken_keeps (s : State) (c tid : Nat) :
    (State.taken s c tid).pending = s.pending ∧ (State.taken s c tid).fuse = s.fuse ∧ (State.taken s c tid).flash = s.flash ∧ (State.taken s c tid).near = s.near ∧ (State.taken s c tid).off = s.off := by
  simp [State.taken]

@[simp] theorem State.readOut_keeps (s : State) (c : Nat) (d : Send) :
    (State.readOut s c d).pending = s.pending ∧ (State.readOut s c d).fuse = s.fuse ∧ (State.readOut s c d).flash = s.flash ∧ (State.readOut s c d).near = s.near ∧ (State.readOut s c d).off = s.off := by
  simp [State.readOut]

@[simp] theorem State.beginLanding_keeps (s : State) (c : Nat) (d : Send) :
    (State.beginLanding s c d).pending = s.pending ∧ (State.beginLanding s c d).fuse = s.fuse ∧ (State.beginLanding s c d).flash = s.flash ∧ (State.beginLanding s c d).near = s.near ∧ (State.beginLanding s c d).off = s.off := by
  simp [State.beginLanding]

@[simp] theorem State.landSlots_keeps (s : State) (core endn pos : Nat) (data : List PNt) :
    (State.landSlots s core endn pos data).pending = s.pending ∧ (State.landSlots s core endn pos data).fuse = s.fuse ∧ (State.landSlots s core endn pos data).flash = s.flash ∧ (State.landSlots s core endn pos data).near = s.near ∧ (State.landSlots s core endn pos data).off = s.off := by
  simp [State.landSlots]

@[simp] theorem State.landOpen_keeps (s : State) (core endn : Nat) (e : MEnd) (d : Send) :
    (State.landOpen s core endn e d).pending = s.pending ∧ (State.landOpen s core endn e d).fuse = s.fuse ∧ (State.landOpen s core endn e d).flash = s.flash ∧ (State.landOpen s core endn e d).near = s.near ∧ (State.landOpen s core endn e d).off = s.off := by
  simp only [State.landOpen]; (repeat' split) <;> simp

@[simp] theorem State.landMessage_keeps (s : State) (core endn : Nat) (e : MEnd) (d : Send) :
    (State.landMessage s core endn e d).pending = s.pending ∧ (State.landMessage s core endn e d).fuse = s.fuse ∧ (State.landMessage s core endn e d).flash = s.flash ∧ (State.landMessage s core endn e d).near = s.near ∧ (State.landMessage s core endn e d).off = s.off := by
  simp only [State.landMessage]; (repeat' split) <;> simp

@[simp] theorem State.landContrib_keeps (s : State) (core queue src k : Nat) (d : Send) (e : MEnd) :
    (State.landContrib s core queue src k d e).pending = s.pending ∧ (State.landContrib s core queue src k d e).fuse = s.fuse ∧ (State.landContrib s core queue src k d e).flash = s.flash ∧ (State.landContrib s core queue src k d e).near = s.near ∧ (State.landContrib s core queue src k d e).off = s.off := by
  simp only [State.landContrib]; (repeat' split) <;> simp

@[simp] theorem State.deliver_keeps (s : State) (n : Nat) (t : Stream) (ws : List Word) :
    (State.deliver s n t ws).pending = s.pending ∧ (State.deliver s n t ws).fuse = s.fuse ∧ (State.deliver s n t ws).flash = s.flash ∧ (State.deliver s n t ws).near = s.near ∧ (State.deliver s n t ws).off = s.off := by
  simp only [State.deliver]; (repeat' split) <;> simp

@[simp] theorem State.fillAll_keeps (s : State) (n : Nat) (p : Prog) :
    (State.fillAll s n p).pending = s.pending ∧ (State.fillAll s n p).fuse = s.fuse ∧ (State.fillAll s n p).flash = s.flash ∧ (State.fillAll s n p).near = s.near ∧ (State.fillAll s n p).off = s.off := by
  simp [State.fillAll]

@[simp] theorem State.startProg_keeps (s : State) (e : Entry) :
    (State.startProg s e).pending = s.pending ∧ (State.startProg s e).fuse = s.fuse ∧ (State.startProg s e).flash = s.flash ∧ (State.startProg s e).near = s.near ∧ (State.startProg s e).off = s.off := by
  simp only [State.startProg]; (repeat' split) <;> simp

@[simp] theorem State.stopProg_keeps (s : State) (n : Nat) :
    (State.stopProg s n).pending = s.pending ∧ (State.stopProg s n).fuse = s.fuse ∧ (State.stopProg s n).flash = s.flash ∧ (State.stopProg s n).near = s.near ∧ (State.stopProg s n).off = s.off := by
  unfold State.stopProg; (repeat' split) <;> simp

@[simp] theorem State.stopEntry_keeps (s : State) (e : Entry) :
    (State.stopEntry s e).pending = s.pending ∧ (State.stopEntry s e).fuse = s.fuse ∧ (State.stopEntry s e).flash = s.flash ∧ (State.stopEntry s e).near = s.near ∧ (State.stopEntry s e).off = s.off := by
  unfold State.stopEntry; (repeat' split) <;> simp

@[simp] theorem State.streamEntry_keeps (s : State) (e : Entry) :
    (State.streamEntry s e).pending = s.pending ∧ (State.streamEntry s e).fuse = s.fuse ∧ (State.streamEntry s e).flash = s.flash ∧ (State.streamEntry s e).near = s.near ∧ (State.streamEntry s e).off = s.off := by
  unfold State.streamEntry; (repeat' split) <;> simp

@[simp] theorem State.signalEntry_keeps (s : State) (e : Entry) :
    (State.signalEntry s e).pending = s.pending ∧ (State.signalEntry s e).fuse = s.fuse ∧ (State.signalEntry s e).flash = s.flash ∧ (State.signalEntry s e).near = s.near ∧ (State.signalEntry s e).off = s.off := by
  simp only [State.signalEntry]; (repeat' split) <;> simp

@[simp] theorem State.feedTokens_keeps (s t : State) (core : Nat) (h : s.feedTokens core = some t) :
    t.pending = s.pending ∧ t.fuse = s.fuse ∧ t.flash = s.flash ∧ t.near = s.near ∧ t.off = s.off := by
  unfold State.feedTokens at h
  simp only [] at h
  split at h
  · cases h
  · generalize hu : (if _ = 0 then s else if s.coreRuns core = true then _ else _) = u at h
    have hk : u.pending = s.pending ∧ u.fuse = s.fuse ∧ u.flash = s.flash ∧ u.near = s.near ∧ u.off = s.off := by
      rw [← hu]; simp
    split at h
    · cases h
    · cases h; simpa using hk

@[simp] theorem State.beginProg_keeps (s : State) (n : Nat) :
    (State.beginProg s n).pending = s.pending ∧ (State.beginProg s n).fuse = s.fuse ∧ (State.beginProg s n).flash = s.flash ∧ (State.beginProg s n).near = s.near ∧ (State.beginProg s n).off = s.off := by
  simp only [State.beginProg]; (repeat' split) <;> simp

@[simp] theorem State.tellAll_keeps (s : State) (p : Prog) (kind : Nat) (info : List Int) :
    (State.tellAll s p kind info).pending = s.pending ∧ (State.tellAll s p kind info).fuse = s.fuse ∧ (State.tellAll s p kind info).flash = s.flash ∧ (State.tellAll s p kind info).near = s.near ∧ (State.tellAll s p kind info).off = s.off := by
  simp [State.tellAll]

@[simp] theorem State.approach_keeps (t n : Nat) (s : State) :
    (State.approach t n s).pending = s.pending ∧ (State.approach t n s).fuse = s.fuse ∧ (State.approach t n s).flash = s.flash ∧ (State.approach t n s).near = s.near ∧ (State.approach t n s).off = s.off := by
  induction n generalizing s with
  | zero => simp [State.approach]
  | succ n ih => unfold State.approach; (repeat' split) <;> simp [ih]

@[simp] theorem State.passToTime_keeps (s : State) (t : Nat) :
    (State.passToTime s t).pending = s.pending ∧ (State.passToTime s t).fuse = s.fuse ∧ (State.passToTime s t).flash = s.flash ∧ (State.passToTime s t).near = s.near ∧ (State.passToTime s t).off = s.off := by
  simp [State.passToTime]

@[simp] theorem State.releasedAt_keeps (s : State) (n t : Nat) :
    (State.releasedAt s n t).pending = s.pending ∧ (State.releasedAt s n t).fuse = s.fuse ∧ (State.releasedAt s n t).flash = s.flash ∧ (State.releasedAt s n t).near = s.near ∧ (State.releasedAt s n t).off = s.off := by
  simp [State.releasedAt]

@[simp] theorem State.settleProg_keeps (s : State) (n : Nat) :
    (State.settleProg s n).pending = s.pending ∧ (State.settleProg s n).fuse = s.fuse ∧ (State.settleProg s n).flash = s.flash ∧ (State.settleProg s n).near = s.near ∧ (State.settleProg s n).off = s.off := by
  unfold State.settleProg; (repeat' split) <;> simp

@[simp] theorem State.commitStall_keeps (s : State) (n : Nat) :
    (State.commitStall s n).pending = s.pending ∧ (State.commitStall s n).fuse = s.fuse ∧ (State.commitStall s n).flash = s.flash ∧ (State.commitStall s n).near = s.near ∧ (State.commitStall s n).off = s.off := by
  unfold State.commitStall; (repeat' split) <;> simp

@[simp] theorem State.commitStep_keeps (s : State) (n : Nat) (rs : List GroupResult) (last : Bool) :
    (State.commitStep s n rs last).pending = s.pending ∧ (State.commitStep s n rs last).fuse = s.fuse ∧ (State.commitStep s n rs last).flash = s.flash ∧ (State.commitStep s n rs last).near = s.near ∧ (State.commitStep s n rs last).off = s.off := by
  unfold State.commitStep; (repeat' split) <;> simp

@[simp] theorem State.replay_keeps (s : State) (n : Nat) :
    (State.replay s n).pending = s.pending ∧ (State.replay s n).fuse = s.fuse ∧ (State.replay s n).flash = s.flash ∧ (State.replay s n).near = s.near ∧ (State.replay s n).off = s.off := by
  unfold State.replay; (repeat' split) <;> simp

@[simp] theorem State.thirdFail_keeps (s : State) (n : Nat) (p : Prog) :
    (State.thirdFail s n p).pending = s.pending ∧ (State.thirdFail s n p).fuse = s.fuse ∧ (State.thirdFail s n p).flash = s.flash ∧ (State.thirdFail s n p).near = s.near ∧ (State.thirdFail s n p).off = s.off := by
  simp [State.thirdFail]

@[simp] theorem State.holdRemount_keeps (s : State) (n : Nat) (p : Prog) :
    (State.holdRemount s n p).pending = s.pending ∧ (State.holdRemount s n p).fuse = s.fuse ∧ (State.holdRemount s n p).flash = s.flash ∧ (State.holdRemount s n p).near = s.near ∧ (State.holdRemount s n p).off = s.off := by
  simp [State.holdRemount]

@[simp] theorem State.leadRemount_keeps (s : State) (n : Nat) :
    (State.leadRemount s n).pending = s.pending ∧ (State.leadRemount s n).fuse = s.fuse ∧ (State.leadRemount s n).flash = s.flash ∧ (State.leadRemount s n).near = s.near ∧ (State.leadRemount s n).off = s.off := by
  unfold State.leadRemount; (repeat' split) <;> simp

@[simp] theorem State.setVetting_keeps (s : State) (action prog : Nat) :
    (State.setVetting s action prog).pending = s.pending ∧ (State.setVetting s action prog).fuse = s.fuse ∧ (State.setVetting s action prog).flash = s.flash ∧ (State.setVetting s action prog).near = s.near ∧ (State.setVetting s action prog).off = s.off := by
  simp [State.setVetting]

@[simp] theorem State.beginPatterns_keeps (s : State) (cores : List Nat) (prog : Nat) :
    (State.beginPatterns s cores prog).pending = s.pending ∧ (State.beginPatterns s cores prog).fuse = s.fuse ∧ (State.beginPatterns s cores prog).flash = s.flash ∧ (State.beginPatterns s cores prog).near = s.near ∧ (State.beginPatterns s cores prog).off = s.off := by
  simp [State.beginPatterns]

@[simp] theorem State.armReplay_keeps (s : State) (prog : Nat) (p : Prog) :
    (State.armReplay s prog p).pending = s.pending ∧ (State.armReplay s prog p).fuse = s.fuse ∧ (State.armReplay s prog p).flash = s.flash ∧ (State.armReplay s prog p).near = s.near ∧ (State.armReplay s prog p).off = s.off := by
  simp [State.armReplay]

@[simp] theorem State.patternCore_keeps (s : State) (c : Nat) :
    (State.patternCore s c).pending = s.pending ∧ (State.patternCore s c).fuse = s.fuse ∧ (State.patternCore s c).flash = s.flash ∧ (State.patternCore s c).near = s.near ∧ (State.patternCore s c).off = s.off := by
  simp only [State.patternCore]; (repeat' split) <;> simp

@[simp] theorem State.endVet_keeps (s : State) (st : Nat) :
    (State.endVet s st).pending = s.pending ∧ (State.endVet s st).fuse = s.fuse ∧ (State.endVet s st).flash = s.flash ∧ (State.endVet s st).near = s.near ∧ (State.endVet s st).off = s.off := by
  simp [State.endVet]

@[simp] theorem State.afterReplay_keeps (s : State) (n : Nat) (p : Prog) (v : Vet) :
    (State.afterReplay s n p v).pending = s.pending ∧ (State.afterReplay s n p v).fuse = s.fuse ∧ (State.afterReplay s n p v).flash = s.flash ∧ (State.afterReplay s n p v).near = s.near ∧ (State.afterReplay s n p v).off = s.off := by
  unfold State.afterReplay; (repeat' split) <;> simp

@[simp] theorem State.endReplay_keeps (s : State) (v : Vet) :
    (State.endReplay s v).pending = s.pending ∧ (State.endReplay s v).fuse = s.fuse ∧ (State.endReplay s v).flash = s.flash ∧ (State.endReplay s v).near = s.near ∧ (State.endReplay s v).off = s.off := by
  simp only [State.endReplay]; (repeat' split) <;> simp

@[simp] theorem State.splitRegion_keeps (s : State) (n : Nat) :
    (State.splitRegion s n).pending = s.pending ∧ (State.splitRegion s n).fuse = s.fuse ∧ (State.splitRegion s n).flash = s.flash ∧ (State.splitRegion s n).near = s.near ∧ (State.splitRegion s n).off = s.off := by
  simp [State.splitRegion]

@[simp] theorem State.applyMirrors_keeps (s : State) (old : Nat → Mirror) :
    (State.applyMirrors s old).pending = s.pending ∧ (State.applyMirrors s old).fuse = s.fuse ∧ (State.applyMirrors s old).flash = s.flash ∧ (State.applyMirrors s old).near = s.near ∧ (State.applyMirrors s old).off = s.off := by
  unfold State.applyMirrors; refine ⟨?_, ?_, ?_, ?_, ?_⟩
  · exact (State.syncMirrors_keeps _).1.trans (foldl_pending _ _ _ fun s x => by split <;> simp)
  · exact (State.syncMirrors_keeps _).2.1.trans (foldl_fuse _ _ _ fun s x => by split <;> simp)
  · exact (State.syncMirrors_keeps _).2.2.1.trans (foldl_flash _ _ _ fun s x => by split <;> simp)
  · exact (State.syncMirrors_keeps _).2.2.2.1.trans (foldl_near _ _ _ fun s x => by split <;> simp)
  · exact (State.syncMirrors_keeps _).2.2.2.2.trans (foldl_off _ _ _ fun s x => by split <;> simp)

@[simp] theorem State.countScrub_keeps (s : State) (a : Nat) :
    (State.countScrub s a).pending = s.pending ∧ (State.countScrub s a).fuse = s.fuse ∧ (State.countScrub s a).flash = s.flash ∧ (State.countScrub s a).near = s.near ∧ (State.countScrub s a).off = s.off := by
  simp [State.countScrub]

@[simp] theorem State.compareCopies_keeps (s : State) (a : Nat) :
    (State.compareCopies s a).pending = s.pending ∧ (State.compareCopies s a).fuse = s.fuse ∧ (State.compareCopies s a).flash = s.flash ∧ (State.compareCopies s a).near = s.near ∧ (State.compareCopies s a).off = s.off := by
  unfold State.compareCopies; (repeat' split) <;> simp

@[simp] theorem State.scrubBlock_keeps (s : State) (a : Nat) (fault : ReadFault) :
    (State.scrubBlock s a fault).pending = s.pending ∧ (State.scrubBlock s a fault).fuse = s.fuse ∧ (State.scrubBlock s a fault).flash = s.flash ∧ (State.scrubBlock s a fault).near = s.near ∧ (State.scrubBlock s a fault).off = s.off := by
  unfold State.scrubBlock; dsimp only; (repeat' split) <;> simp

@[simp] theorem State.applyBanks_keeps (s : State) (core mask : Nat) :
    (State.applyBanks s core mask).pending = s.pending ∧ (State.applyBanks s core mask).fuse = s.fuse ∧ (State.applyBanks s core mask).flash = s.flash ∧ (State.applyBanks s core mask).near = s.near ∧ (State.applyBanks s core mask).off = s.off := by
  simp [State.applyBanks]

@[simp] theorem State.drainCores_keeps (s : State) (old : Nat) :
    (State.drainCores s old).pending = s.pending ∧ (State.drainCores s old).fuse = s.fuse ∧ (State.drainCores s old).flash = s.flash ∧ (State.drainCores s old).near = s.near ∧ (State.drainCores s old).off = s.off := by
  simp [State.drainCores]

@[simp] theorem State.openEnds_keeps (s : State) (c : Nat) :
    (State.openEnds s c).pending = s.pending ∧ (State.openEnds s c).fuse = s.fuse ∧ (State.openEnds s c).flash = s.flash ∧ (State.openEnds s c).near = s.near ∧ (State.openEnds s c).off = s.off := by
  simp [State.openEnds]

@[simp] theorem State.copyData_keeps (m : Img) (s : State) (x : Sec) :
    (State.copyData m s x).pending = s.pending ∧ (State.copyData m s x).fuse = s.fuse ∧ (State.copyData m s x).flash = s.flash ∧ (State.copyData m s x).near = s.near ∧ (State.copyData m s x).off = s.off := by
  simp only [State.copyData]; (repeat' split) <;> simp

@[simp] theorem State.install_keeps (s : State) (m : Img) (digest n : Nat) (rs : List Reloc) :
    (State.install s m digest n rs).pending = s.pending ∧ (State.install s m digest n rs).fuse = s.fuse ∧ (State.install s m digest n rs).flash = s.flash ∧ (State.install s m digest n rs).near = s.near ∧ (State.install s m digest n rs).off = s.off := by
  simp [State.install]

@[simp] theorem State.relocated_keeps (s : State) (m : Img) :
    (State.relocated s m).pending = s.pending ∧ (State.relocated s m).fuse = s.fuse ∧ (State.relocated s m).flash = s.flash ∧ (State.relocated s m).near = s.near ∧ (State.relocated s m).off = s.off := by
  simp [State.relocated]

@[simp] theorem State.loadEntry_keeps (s : State) (e : Entry) :
    (State.loadEntry s e).pending = s.pending ∧ (State.loadEntry s e).fuse = s.fuse ∧ (State.loadEntry s e).flash = s.flash ∧ (State.loadEntry s e).near = s.near ∧ (State.loadEntry s e).off = s.off := by
  simp only [State.loadEntry]; (repeat' split) <;> simp

@[simp] theorem State.refuseFlit_keeps (s : State) (q : Queued) :
    (State.refuseFlit s q).pending = s.pending ∧ (State.refuseFlit s q).fuse = s.fuse ∧ (State.refuseFlit s q).flash = s.flash ∧ (State.refuseFlit s q).near = s.near ∧ (State.refuseFlit s q).off = s.off := by
  unfold State.refuseFlit; (repeat' split) <;> simp

@[simp] theorem State.refuseAll_keeps (s : State) (p : Nat) :
    (State.refuseAll s p).pending = s.pending ∧ (State.refuseAll s p).fuse = s.fuse ∧ (State.refuseAll s p).flash = s.flash ∧ (State.refuseAll s p).near = s.near ∧ (State.refuseAll s p).off = s.off := by
  simp [State.refuseAll]

@[simp] theorem State.forward_keeps (s : State) (from_ : Nat) (f : Sys2Proof.Flit) :
    (State.forward s from_ f).pending = s.pending ∧ (State.forward s from_ f).fuse = s.fuse ∧ (State.forward s from_ f).flash = s.flash ∧ (State.forward s from_ f).near = s.near ∧ (State.forward s from_ f).off = s.off := by
  simp only [State.forward]; (repeat' split) <;> simp

@[simp] theorem State.openWrite_keeps (s : State) (f : Sys2Proof.Flit) :
    (State.openWrite s f).pending = s.pending ∧ (State.openWrite s f).fuse = s.fuse ∧ (State.openWrite s f).flash = s.flash ∧ (State.openWrite s f).near = s.near ∧ (State.openWrite s f).off = s.off := by
  unfold State.openWrite; (repeat' split) <;> simp

@[simp] theorem State.openRead_keeps (s : State) (f : Sys2Proof.Flit) :
    (State.openRead s f).pending = s.pending ∧ (State.openRead s f).fuse = s.fuse ∧ (State.openRead s f).flash = s.flash ∧ (State.openRead s f).near = s.near ∧ (State.openRead s f).off = s.off := by
  dsimp only [State.openRead]; simp

@[simp] theorem State.openResponse_keeps (s : State) (f : Sys2Proof.Flit) :
    (State.openResponse s f).pending = s.pending ∧ (State.openResponse s f).fuse = s.fuse ∧ (State.openResponse s f).flash = s.flash ∧ (State.openResponse s f).near = s.near ∧ (State.openResponse s f).off = s.off := by
  simp [State.openResponse]

@[simp] theorem State.releaseFlit_keeps (s : State) (n : Nat) (w : Flow) (word count : Nat) (data : List PNt) :
    (State.releaseFlit s n w word count data).pending = s.pending ∧ (State.releaseFlit s n w word count data).fuse = s.fuse ∧ (State.releaseFlit s n w word count data).flash = s.flash ∧ (State.releaseFlit s n w word count data).near = s.near ∧ (State.releaseFlit s n w word count data).off = s.off := by
  simp [State.releaseFlit]

@[simp] theorem State.station_keeps (s : State) (p : Nat) (f : Sys2Proof.Flit) :
    (State.station s p f).pending = s.pending ∧ (State.station s p f).fuse = s.fuse ∧ (State.station s p f).flash = s.flash ∧ (State.station s p f).near = s.near ∧ (State.station s p f).off = s.off := by
  unfold State.station; (repeat' split) <;> simp

@[simp] theorem State.deliverFlit_keeps (s : State) (p : Nat) (f : Sys2Proof.Flit) :
    (State.deliverFlit s p f).pending = s.pending ∧ (State.deliverFlit s p f).fuse = s.fuse ∧ (State.deliverFlit s p f).flash = s.flash ∧ (State.deliverFlit s p f).near = s.near ∧ (State.deliverFlit s p f).off = s.off := by
  unfold State.deliverFlit; (repeat' split) <;> simp

@[simp] theorem State.sendNak_keeps (s : State) (p : Nat) :
    (State.sendNak s p).pending = s.pending ∧ (State.sendNak s p).fuse = s.fuse ∧ (State.sendNak s p).flash = s.flash ∧ (State.sendNak s p).near = s.near ∧ (State.sendNak s p).off = s.off := by
  unfold State.sendNak; simp only [foldl_pending, foldl_fuse, foldl_flash, foldl_near, foldl_off, State.sendBare_keeps, implies_true, and_self]

@[simp] theorem State.acceptFlit_keeps (s : State) (p : Nat) (f : Sys2Proof.Flit) :
    (State.acceptFlit s p f).pending = s.pending ∧ (State.acceptFlit s p f).fuse = s.fuse ∧ (State.acceptFlit s p f).flash = s.flash ∧ (State.acceptFlit s p f).near = s.near ∧ (State.acceptFlit s p f).off = s.off := by
  simp [State.acceptFlit]

@[simp] theorem State.retrainPort_keeps (s : State) (p : Nat) :
    (State.retrainPort s p).pending = s.pending ∧ (State.retrainPort s p).fuse = s.fuse ∧ (State.retrainPort s p).flash = s.flash ∧ (State.retrainPort s p).near = s.near ∧ (State.retrainPort s p).off = s.off := by
  simp [State.retrainPort]

@[simp] theorem State.sendBring_keeps (s : State) (p kind : Nat) (info : List Int) :
    (State.sendBring s p kind info).pending = s.pending ∧ (State.sendBring s p kind info).fuse = s.fuse ∧ (State.sendBring s p kind info).flash = s.flash ∧ (State.sendBring s p kind info).near = s.near ∧ (State.sendBring s p kind info).off = s.off := by
  simp [State.sendBring]

@[simp] theorem State.sendTime_keeps (s : State) :
    (State.sendTime s).pending = s.pending ∧ (State.sendTime s).fuse = s.fuse ∧ (State.sendTime s).flash = s.flash ∧ (State.sendTime s).near = s.near ∧ (State.sendTime s).off = s.off := by
  simp [State.sendTime]

@[simp] theorem State.portCalibrated_keeps (s : State) (port picos : Nat) :
    (State.portCalibrated s port picos).pending = s.pending ∧ (State.portCalibrated s port picos).fuse = s.fuse ∧ (State.portCalibrated s port picos).flash = s.flash ∧ (State.portCalibrated s port picos).near = s.near ∧ (State.portCalibrated s port picos).off = s.off := by
  simp [State.portCalibrated]

@[simp] theorem State.portDown_keeps (s : State) (p : Nat) :
    (State.portDown s p).pending = s.pending ∧ (State.portDown s p).fuse = s.fuse ∧ (State.portDown s p).flash = s.flash ∧ (State.portDown s p).near = s.near ∧ (State.portDown s p).off = s.off := by
  simp [State.portDown]

@[simp] theorem State.applyJport_keeps (s : State) (p : Nat) (on : Bool) :
    (State.applyJport s p on).pending = s.pending ∧ (State.applyJport s p on).fuse = s.fuse ∧ (State.applyJport s p on).flash = s.flash ∧ (State.applyJport s p on).near = s.near ∧ (State.applyJport s p on).off = s.off := by
  simp [State.applyJport]

@[simp] theorem State.replace_keeps (s : State) :
    (State.replace s).pending = s.pending ∧ (State.replace s).fuse = s.fuse ∧ (State.replace s).flash = s.flash ∧ (State.replace s).near = s.near ∧ (State.replace s).off = s.off := by
  simp [State.replace]

@[simp] theorem State.rxFrames_keeps (s : State) (p n : Nat) :
    (State.rxFrames s p n).pending = s.pending ∧ (State.rxFrames s p n).fuse = s.fuse ∧ (State.rxFrames s p n).flash = s.flash ∧ (State.rxFrames s p n).near = s.near ∧ (State.rxFrames s p n).off = s.off := by
  simp [State.rxFrames]

@[simp] theorem State.passFrames_keeps (s : State) (q n : Nat) :
    (State.passFrames s q n).pending = s.pending ∧ (State.passFrames s q n).fuse = s.fuse ∧ (State.passFrames s q n).flash = s.flash ∧ (State.passFrames s q n).near = s.near ∧ (State.passFrames s q n).off = s.off := by
  simp [State.passFrames]

@[simp] theorem State.ceMark_keeps (s : State) (q : Nat) (ce : Bool) :
    (State.ceMark s q ce).pending = s.pending ∧ (State.ceMark s q ce).fuse = s.fuse ∧ (State.ceMark s q ce).flash = s.flash ∧ (State.ceMark s q ce).near = s.near ∧ (State.ceMark s q ce).off = s.off := by
  simp [State.ceMark]

@[simp] theorem State.nakQp_keeps (s : State) (q kind : Nat) :
    (State.nakQp s q kind).pending = s.pending ∧ (State.nakQp s q kind).fuse = s.fuse ∧ (State.nakQp s q kind).flash = s.flash ∧ (State.nakQp s q kind).near = s.near ∧ (State.nakQp s q kind).off = s.off := by
  simp [State.nakQp]

@[simp] theorem State.doorbell_keeps (s : State) (q : Nat) (b : HostSend) :
    (State.doorbell s q b).pending = s.pending ∧ (State.doorbell s q b).fuse = s.fuse ∧ (State.doorbell s q b).flash = s.flash ∧ (State.doorbell s q b).near = s.near ∧ (State.doorbell s q b).off = s.off := by
  simp [State.doorbell]

@[simp] theorem State.failTransfer_keeps (s : State) (i : Nat) (c : SCmd) :
    (State.failTransfer s i c).pending = s.pending ∧ (State.failTransfer s i c).fuse = s.fuse ∧ (State.failTransfer s i c).flash = s.flash ∧ (State.failTransfer s i c).near = s.near ∧ (State.failTransfer s i c).off = s.off := by
  simp [State.failTransfer]

@[simp] theorem State.qpError_keeps (s : State) (q : Nat) :
    (State.qpError s q).pending = s.pending ∧ (State.qpError s q).fuse = s.fuse ∧ (State.qpError s q).flash = s.flash ∧ (State.qpError s q).near = s.near ∧ (State.qpError s q).off = s.off := by
  simp [State.qpError]

@[simp] theorem State.portQueuesError_keeps (s : State) (p : Nat) :
    (State.portQueuesError s p).pending = s.pending ∧ (State.portQueuesError s p).fuse = s.fuse ∧ (State.portQueuesError s p).flash = s.flash ∧ (State.portQueuesError s p).near = s.near ∧ (State.portQueuesError s p).off = s.off := by
  simp [State.portQueuesError]

@[simp] theorem State.applyHport_keeps (s : State) (p : Nat) (on : Bool) :
    (State.applyHport s p on).pending = s.pending ∧ (State.applyHport s p on).fuse = s.fuse ∧ (State.applyHport s p on).flash = s.flash ∧ (State.applyHport s p on).near = s.near ∧ (State.applyHport s p on).off = s.off := by
  simp [State.applyHport]

@[simp] theorem State.readyQueue_keeps (s : State) (q : Nat) :
    (State.readyQueue s q).pending = s.pending ∧ (State.readyQueue s q).fuse = s.fuse ∧ (State.readyQueue s q).flash = s.flash ∧ (State.readyQueue s q).near = s.near ∧ (State.readyQueue s q).off = s.off := by
  simp [State.readyQueue]

@[simp] theorem State.discardNew_keeps (s : State) (q : Nat) :
    (State.discardNew s q).pending = s.pending ∧ (State.discardNew s q).fuse = s.fuse ∧ (State.discardNew s q).flash = s.flash ∧ (State.discardNew s q).near = s.near ∧ (State.discardNew s q).off = s.off := by
  simp [State.discardNew]

@[simp] theorem State.applyQueue_keeps (s : State) (q : Nat) (on : Bool) :
    (State.applyQueue s q on).pending = s.pending ∧ (State.applyQueue s q on).fuse = s.fuse ∧ (State.applyQueue s q on).flash = s.flash ∧ (State.applyQueue s q on).near = s.near ∧ (State.applyQueue s q on).off = s.off := by
  simp [State.applyQueue]

@[simp] theorem State.setWin_keeps (s : State) (i : Nat) (w : Win) :
    (State.setWin s i w).pending = s.pending ∧ (State.setWin s i w).fuse = s.fuse ∧ (State.setWin s i w).flash = s.flash ∧ (State.setWin s i w).near = s.near ∧ (State.setWin s i w).off = s.off := by
  simp [State.setWin]

@[simp] theorem State.makeWindow_keeps (s : State) (e : Entry) :
    (State.makeWindow s e).pending = s.pending ∧ (State.makeWindow s e).fuse = s.fuse ∧ (State.makeWindow s e).flash = s.flash ∧ (State.makeWindow s e).near = s.near ∧ (State.makeWindow s e).off = s.off := by
  simp [State.makeWindow]

@[simp] theorem State.breakWindow_keeps (s : State) (e : Entry) :
    (State.breakWindow s e).pending = s.pending ∧ (State.breakWindow s e).fuse = s.fuse ∧ (State.breakWindow s e).flash = s.flash ∧ (State.breakWindow s e).near = s.near ∧ (State.breakWindow s e).off = s.off := by
  simp [State.breakWindow]

@[simp] theorem State.keyError_keeps (s : State) (q n : Nat) :
    (State.keyError s q n).pending = s.pending ∧ (State.keyError s q n).fuse = s.fuse ∧ (State.keyError s q n).flash = s.flash ∧ (State.keyError s q n).near = s.near ∧ (State.keyError s q n).off = s.off := by
  simp [State.keyError]

@[simp] theorem State.removeTime_keeps (s : State) (n : Nat) :
    (State.removeTime s n).pending = s.pending ∧ (State.removeTime s n).fuse = s.fuse ∧ (State.removeTime s n).flash = s.flash ∧ (State.removeTime s n).near = s.near ∧ (State.removeTime s n).off = s.off := by
  simp [State.removeTime]

@[simp] theorem State.swallow_keeps (s : State) (n own : Nat) :
    (State.swallow s n own).pending = s.pending ∧ (State.swallow s n own).fuse = s.fuse ∧ (State.swallow s n own).flash = s.flash ∧ (State.swallow s n own).near = s.near ∧ (State.swallow s n own).off = s.off := by
  simp [State.swallow]

@[simp] theorem State.countStretch_keeps (s : State) (n : Nat) :
    (State.countStretch s n).pending = s.pending ∧ (State.countStretch s n).fuse = s.fuse ∧ (State.countStretch s n).flash = s.flash ∧ (State.countStretch s n).near = s.near ∧ (State.countStretch s n).off = s.off := by
  simp [State.countStretch]

@[simp] theorem State.forceRest_keeps (s : State) :
    (State.forceRest s).pending = s.pending ∧ (State.forceRest s).fuse = s.fuse ∧ (State.forceRest s).flash = s.flash ∧ (State.forceRest s).near = s.near ∧ (State.forceRest s).off = s.off := by
  simp [State.forceRest]

@[simp] theorem State.usedEnergy_keeps (s : State) (microjoules : Nat) :
    (State.usedEnergy s microjoules).pending = s.pending ∧ (State.usedEnergy s microjoules).fuse = s.fuse ∧ (State.usedEnergy s microjoules).flash = s.flash ∧ (State.usedEnergy s microjoules).near = s.near ∧ (State.usedEnergy s microjoules).off = s.off := by
  simp [State.usedEnergy]

@[simp] theorem State.drawn_keeps (s : State) (microjoules : Nat) :
    (State.drawn s microjoules).pending = s.pending ∧ (State.drawn s microjoules).fuse = s.fuse ∧ (State.drawn s microjoules).flash = s.flash ∧ (State.drawn s microjoules).near = s.near ∧ (State.drawn s microjoules).off = s.off := by
  simp [State.drawn]

@[simp] theorem State.limited_keeps (s : State) :
    (State.limited s).pending = s.pending ∧ (State.limited s).fuse = s.fuse ∧ (State.limited s).flash = s.flash ∧ (State.limited s).near = s.near ∧ (State.limited s).off = s.off := by
  simp [State.limited]

@[simp] theorem State.freeze_keeps (s : State) (source : Nat) :
    (State.freeze s source).pending = s.pending ∧ (State.freeze s source).fuse = s.fuse ∧ (State.freeze s source).flash = s.flash ∧ (State.freeze s source).near = s.near ∧ (State.freeze s source).off = s.off := by
  simp [State.freeze]

@[simp] theorem State.applyArm_keeps (s : State) :
    (State.applyArm s).pending = s.pending ∧ (State.applyArm s).fuse = s.fuse ∧ (State.applyArm s).flash = s.flash ∧ (State.applyArm s).near = s.near ∧ (State.applyArm s).off = s.off := by
  simp [State.applyArm]

@[simp] theorem State.arm_keeps (s : State) (arm prog at_ : Nat) :
    (State.arm s arm prog at_).pending = s.pending ∧ (State.arm s arm prog at_).fuse = s.fuse ∧ (State.arm s arm prog at_).flash = s.flash ∧ (State.arm s arm prog at_).near = s.near ∧ (State.arm s arm prog at_).off = s.off := by
  simp [State.arm]

@[simp] theorem State.startReadout_keeps (s : State) :
    (State.startReadout s).pending = s.pending ∧ (State.startReadout s).fuse = s.fuse ∧ (State.startReadout s).flash = s.flash ∧ (State.startReadout s).near = s.near ∧ (State.startReadout s).off = s.off := by
  simp [State.startReadout]

@[simp] theorem State.endFreeze_keeps (s : State) :
    (State.endFreeze s).pending = s.pending ∧ (State.endFreeze s).fuse = s.fuse ∧ (State.endFreeze s).flash = s.flash ∧ (State.endFreeze s).near = s.near ∧ (State.endFreeze s).off = s.off := by
  simp [State.endFreeze]

@[simp] theorem State.waitUntil_keeps (s : State) (t : Nat) :
    (State.waitUntil s t).pending = s.pending ∧ (State.waitUntil s t).fuse = s.fuse ∧ (State.waitUntil s t).flash = s.flash ∧ (State.waitUntil s t).near = s.near ∧ (State.waitUntil s t).off = s.off := by
  simp [State.waitUntil]

@[simp] theorem State.flashWrite_keeps (s : State) (a : Nat) (l : List (BitVec 8)) :
    (State.flashWrite s a l).pending = s.pending ∧ (State.flashWrite s a l).fuse = s.fuse ∧ (State.flashWrite s a l).near = s.near ∧ (State.flashWrite s a l).off = s.off := by
  simp [State.flashWrite]

@[simp] theorem State.setCtrl_keeps (s : State) (off : Bool) (c : Ctrl) :
    (State.setCtrl s off c).pending = s.pending ∧ (State.setCtrl s off c).fuse = s.fuse ∧ (State.setCtrl s off c).flash = s.flash := by
  simp [State.setCtrl]

@[simp] theorem State.claim_keeps (s : State) (off : Bool) :
    (State.claim s off).pending = s.pending ∧ (State.claim s off).fuse = s.fuse ∧ (State.claim s off).flash = s.flash := by
  simp [State.claim]

@[simp] theorem State.yieldBit_keeps (s : State) (off : Bool) :
    (State.yieldBit s off).pending = s.pending ∧ (State.yieldBit s off).fuse = s.fuse ∧ (State.yieldBit s off).flash = s.flash := by
  simp [State.yieldBit]

@[simp] theorem State.holdCtrl_keeps (s : State) (off : Bool) :
    (State.holdCtrl s off).pending = s.pending ∧ (State.holdCtrl s off).fuse = s.fuse ∧ (State.holdCtrl s off).flash = s.flash := by
  simp [State.holdCtrl]

@[simp] theorem State.closeAllIr_keeps (s : State) :
    (State.closeAllIr s).pending = s.pending ∧ (State.closeAllIr s).fuse = s.fuse ∧ (State.closeAllIr s).flash = s.flash ∧ (State.closeAllIr s).near = s.near ∧ (State.closeAllIr s).off = s.off := by
  simp [State.closeAllIr]

@[simp] theorem State.takeoverReset_keeps (s : State) (detail : Nat) :
    (State.takeoverReset s detail).pending = s.pending ∧ (State.takeoverReset s detail).fuse = s.fuse ∧ (State.takeoverReset s detail).flash = s.flash ∧ (State.takeoverReset s detail).near = s.near ∧ (State.takeoverReset s detail).off = s.off := by
  simp [State.takeoverReset]

@[simp] theorem State.takeOver_keeps (s : State) :
    (State.takeOver s).pending = s.pending ∧ (State.takeOver s).fuse = s.fuse ∧ (State.takeOver s).flash = s.flash := by
  simp [State.takeOver]

@[simp] theorem State.resetStandby_keeps (s : State) :
    (State.resetStandby s).pending = s.pending ∧ (State.resetStandby s).fuse = s.fuse ∧ (State.resetStandby s).flash = s.flash := by
  simp [State.resetStandby]

@[simp] theorem State.updateData_keeps (s : State) (l : List (BitVec 8)) :
    (State.updateData s l).pending = s.pending ∧ (State.updateData s l).fuse = s.fuse ∧ (State.updateData s l).near = s.near ∧ (State.updateData s l).off = s.off := by
  simp [State.updateData]

@[simp] theorem State.updateCheck_keeps (s : State) :
    (State.updateCheck s).pending = s.pending ∧ (State.updateCheck s).fuse = s.fuse ∧ (State.updateCheck s).flash = s.flash ∧ (State.updateCheck s).near = s.near ∧ (State.updateCheck s).off = s.off := by
  simp [State.updateCheck]

@[simp] theorem State.restartStandby_keeps (s : State) :
    (State.restartStandby s).pending = s.pending ∧ (State.restartStandby s).fuse = s.fuse ∧ (State.restartStandby s).flash = s.flash := by
  simp [State.restartStandby]

@[simp] theorem State.handOver_keeps (s : State) :
    (State.handOver s).pending = s.pending ∧ (State.handOver s).fuse = s.fuse ∧ (State.handOver s).flash = s.flash := by
  simp [State.handOver]

@[simp] theorem State.commitSvn_keeps (s : State) :
    (State.commitSvn s).pending = s.pending ∧ (State.commitSvn s).flash = s.flash ∧ (State.commitSvn s).near = s.near ∧ (State.commitSvn s).off = s.off := by
  simp [State.commitSvn]

@[simp] theorem State.revoke_keeps (s : State) (k : Nat) :
    (State.revoke s k).pending = s.pending ∧ (State.revoke s k).flash = s.flash ∧ (State.revoke s k).near = s.near ∧ (State.revoke s k).off = s.off := by
  simp [State.revoke]

@[simp] theorem State.writeNonce_keeps (s : State) (id : Nat) (l : List (BitVec 8)) :
    (State.writeNonce s id l).pending = s.pending ∧ (State.writeNonce s id l).fuse = s.fuse ∧ (State.writeNonce s id l).flash = s.flash ∧ (State.writeNonce s id l).near = s.near ∧ (State.writeNonce s id l).off = s.off := by
  unfold State.writeNonce; (repeat' split) <;> simp

@[simp] theorem State.store_keeps (s : State) (x : Staged) :
    (State.store s x).pending = s.pending ∧ (State.store s x).fuse = s.fuse ∧ (State.store s x).flash = s.flash ∧ (State.store s x).near = s.near ∧ (State.store s x).off = s.off := by
  simp [State.store]

@[simp] theorem State.assignNode_keeps (s : State) (n : Nat) :
    (State.assignNode s n).pending = s.pending ∧ (State.assignNode s n).fuse = s.fuse ∧ (State.assignNode s n).flash = s.flash ∧ (State.assignNode s n).near = s.near ∧ (State.assignNode s n).off = s.off := by
  simp [State.assignNode]

@[simp] theorem State.beginVet_keeps (s : State) :
    (State.beginVet s).pending = s.pending ∧ (State.beginVet s).fuse = s.fuse ∧ (State.beginVet s).flash = s.flash ∧ (State.beginVet s).near = s.near ∧ (State.beginVet s).off = s.off := by
  simp only [State.beginVet]; (repeat' split) <;> simp

@[simp] theorem State.act_keeps (s : State) (id : Nat) (x : Staged) :
    (State.act s id x).pending = s.pending := by
  unfold State.act; (repeat' split) <;> simp

@[simp] theorem State.applyNow_keeps (s : State) (id : Nat) (x : Staged) :
    (State.applyNow s id x).pending = s.pending := by
  simp [State.applyNow]

@[simp] theorem State.keepSels_keeps (s : State) (v : View) :
    (State.keepSels s v).pending = s.pending ∧ (State.keepSels s v).fuse = s.fuse ∧ (State.keepSels s v).flash = s.flash ∧ (State.keepSels s v).near = s.near ∧ (State.keepSels s v).off = s.off := by
  unfold State.keepSels; (repeat' split) <;> simp

@[simp] theorem WriteRun.item_pending (r : WriteRun) (own : Bool) (x : Item) (rest : List Item) :
    (r.item own x rest).s.pending = r.s.pending := by
  unfold WriteRun.item; dsimp only; (repeat' split) <;> simp

@[simp] theorem WriteRun.run_pending (own : Bool) (l : List Item) (r : WriteRun) :
    (r.run own l).s.pending = r.s.pending := by
  induction l generalizing r with
  | nil => rfl
  | cons x xs ih => unfold WriteRun.run; split <;> simp [ih]

@[simp] theorem State.writeItems_keeps (s : State) (id : Nat) (l : List Item) :
    (State.writeItems s id l).1.pending = s.pending := by
  simp only [State.writeItems]; (repeat' split) <;> simp

@[simp] theorem State.commitPower_keeps (s : State) (seg : Bool) (l : List Staged) :
    (State.commitPower s seg l).pending = s.pending ∧ (State.commitPower s seg l).fuse = s.fuse ∧ (State.commitPower s seg l).flash = s.flash ∧ (State.commitPower s seg l).near = s.near ∧ (State.commitPower s seg l).off = s.off := by
  unfold State.commitPower; (repeat' split) <;> simp

@[simp] theorem State.applyAll_keeps (s : State) (id : Nat) (seg : Bool) (l : List Staged) :
    (State.applyAll s id seg l).pending = s.pending := by
  simp [State.applyAll]

@[simp] theorem State.resetBy_keeps (s : State) (kind : Nat) :
    (State.resetBy s kind).pending = s.pending ∧ (State.resetBy s kind).fuse = s.fuse ∧ (State.resetBy s kind).flash = s.flash ∧ (State.resetBy s kind).near = s.near ∧ (State.resetBy s kind).off = s.off := by
  unfold State.resetBy; (repeat' split) <;> simp

@[simp] theorem State.commitTxn_keeps (s : State) (id : Nat) (seg : Bool) (l : List Staged) :
    (State.commitTxn s id seg l).1.pending = s.pending := by
  simp only [State.commitTxn]; (repeat' split) <;> simp

@[simp] theorem State.sendFrames_keeps (s : State) (ep : Endpoint) (l : List RespFrame) :
    (State.sendFrames s ep l).pending = s.pending ∧ (State.sendFrames s ep l).fuse = s.fuse ∧ (State.sendFrames s ep l).flash = s.flash ∧ (State.sendFrames s ep l).near = s.near ∧ (State.sendFrames s ep l).off = s.off := by
  unfold State.sendFrames; (repeat' split) <;> simp

@[simp] theorem State.dropFrame_keeps (s : State) :
    (State.dropFrame s).pending = s.pending ∧ (State.dropFrame s).fuse = s.fuse ∧ (State.dropFrame s).flash = s.flash ∧ (State.dropFrame s).near = s.near ∧ (State.dropFrame s).off = s.off := by
  simp [State.dropFrame]

@[simp] theorem State.rollbackOf_keeps (s : State) (id : Nat) :
    (State.rollbackOf s id).pending = s.pending ∧ (State.rollbackOf s id).fuse = s.fuse ∧ (State.rollbackOf s id).flash = s.flash ∧ (State.rollbackOf s id).near = s.near ∧ (State.rollbackOf s id).off = s.off := by
  simp [State.rollbackOf]

@[simp] theorem State.closeIr_keeps (s : State) (id : Nat) :
    (State.closeIr s id).pending = s.pending ∧ (State.closeIr s id).fuse = s.fuse ∧ (State.closeIr s id).flash = s.flash ∧ (State.closeIr s id).near = s.near ∧ (State.closeIr s id).off = s.off := by
  simp [State.closeIr]

@[simp] theorem State.timeoutTxn_keeps (s : State) :
    (State.timeoutTxn s).pending = s.pending ∧ (State.timeoutTxn s).fuse = s.fuse ∧ (State.timeoutTxn s).flash = s.flash ∧ (State.timeoutTxn s).near = s.near ∧ (State.timeoutTxn s).off = s.off := by
  simp only [State.timeoutTxn]; (repeat' split) <;> simp

@[simp] theorem State.expireIr_keeps (s : State) :
    (State.expireIr s).pending = s.pending ∧ (State.expireIr s).fuse = s.fuse ∧ (State.expireIr s).flash = s.flash ∧ (State.expireIr s).near = s.near ∧ (State.expireIr s).off = s.off := by
  unfold State.expireIr; (repeat' split) <;> simp

@[simp] theorem State.opHello_keeps (s : State) (f : Sys2Proof.Frame) :
    (State.opHello s f).1.pending = s.pending ∧ (State.opHello s f).1.fuse = s.fuse ∧ (State.opHello s f).1.flash = s.flash ∧ (State.opHello s f).1.near = s.near ∧ (State.opHello s f).1.off = s.off := by
  unfold State.opHello; (repeat' split) <;> simp

@[simp] theorem State.openSession_keeps (s : State) (id : Nat) (p : IrPend) (f : Sys2Proof.Frame) (msg : List (BitVec 8)) :
    (State.openSession s id p f msg).1.pending = s.pending ∧ (State.openSession s id p f msg).1.fuse = s.fuse ∧ (State.openSession s id p f msg).1.flash = s.flash ∧ (State.openSession s id p f msg).1.near = s.near ∧ (State.openSession s id p f msg).1.off = s.off := by
  simp only [State.openSession]; (repeat' split) <;> simp

@[simp] theorem State.setPend_keeps (s : State) (id : Nat) (p : IrPend) :
    (State.setPend s id p).pending = s.pending ∧ (State.setPend s id p).fuse = s.fuse ∧ (State.setPend s id p).flash = s.flash ∧ (State.setPend s id p).near = s.near ∧ (State.setPend s id p).off = s.off := by
  simp [State.setPend]

@[simp] theorem State.opAuth_keeps (s : State) (id : Nat) (p : IrPend) (f : Sys2Proof.Frame) :
    (State.opAuth s id p f).1.pending = s.pending ∧ (State.opAuth s id p f).1.fuse = s.fuse ∧ (State.opAuth s id p f).1.flash = s.flash ∧ (State.opAuth s id p f).1.near = s.near ∧ (State.opAuth s id p f).1.off = s.off := by
  simp only [State.opAuth]; (repeat' split) <;> simp

@[simp] theorem State.unauth_pending (s t : State) (h : s.unauth = some t) :
    t.pending = s.pending := by
  unfold State.unauth at h; dsimp only at h; (repeat' split at h) <;> simp at h <;> subst h <;> rfl

@[simp] theorem State.tellLate_pending (s t : State) (id : Nat) (h : s.tellLate id = some t) :
    t.pending = s.pending := by
  unfold State.tellLate at h; (repeat' split at h) <;> cases h; rfl

@[simp] theorem State.opRead_pending (s : State) (id : Nat) (f : Sys2Proof.Frame) :
    (s.opRead id f).s.pending = s.pending := by
  unfold State.opRead; split
  · rfl
  · dsimp only; (repeat' split) <;> rfl

@[simp] theorem State.opWrite_pending (s : State) (id : Nat) (f : Sys2Proof.Frame) :
    (s.opWrite id f).s.pending = s.pending := by
  unfold State.opWrite; split
  · rfl
  · split
    · rename_i t ht; exact State.tellLate_pending _ _ _ ht
    · simp [answerWith]

@[simp] theorem State.opDescribe_pending (s : State) (f : Sys2Proof.Frame) :
    (s.opDescribe f).s.pending = s.pending := by
  unfold State.opDescribe; dsimp only; (repeat' split) <;> rfl

@[simp] theorem State.opNext_pending (s : State) (f : Sys2Proof.Frame) :
    (s.opNext f).s.pending = s.pending := by
  unfold State.opNext; (repeat' split) <;> rfl

@[simp] theorem State.opClose_pending (s : State) (id : Nat) :
    (s.opClose id).s.pending = s.pending := by
  simp [State.opClose, answerWith]

@[simp] theorem State.opBegin_pending (s : State) (id : Nat) :
    (s.opBegin id).s.pending = s.pending := by
  unfold State.opBegin; split
  · rfl
  · cases h : s.tellLate id with
    | none => rfl
    | some t => exact (State.tellLate_pending s t id h)

@[simp] theorem State.opCommit_pending (s : State) (id : Nat) (f : Sys2Proof.Frame) :
    (s.opCommit id f).s.pending = s.pending := by
  unfold State.opCommit; split
  · rename_i t _ ht; exact State.tellLate_pending _ _ _ ht
  · rfl
  · split <;> simp [answerWith]

@[simp] theorem State.opRollback_pending (s : State) (id : Nat) :
    (s.opRollback id).s.pending = s.pending := by
  unfold State.opRollback; split
  · rename_i t _ ht; exact State.tellLate_pending _ _ _ ht
  · rfl
  · split <;> simp [answerWith]

@[simp] theorem State.perform_pending (s : State) (op id : Nat) (f : Sys2Proof.Frame) :
    (s.perform op id f).s.pending = s.pending := by
  unfold State.perform; dsimp only; (repeat' split) <;> simp [answerWith]

@[simp] theorem State.inSession_keeps (s : State) (op id : Nat) (i : IrSess) (f : Sys2Proof.Frame) :
    (State.inSession s op id i f).pending = s.pending := by
  unfold State.inSession; (repeat' split) <;> simp
  split <;> simp

@[simp] theorem State.noSession_keeps (s : State) (op : Nat) (f : Sys2Proof.Frame) :
    (State.noSession s op f).pending = s.pending := by
  unfold State.noSession; (repeat' split) <;> simp

@[simp] theorem State.countFrame_keeps (s : State) (ep : Endpoint) :
    (State.countFrame s ep).pending = s.pending ∧ (State.countFrame s ep).fuse = s.fuse ∧ (State.countFrame s ep).flash = s.flash ∧ (State.countFrame s ep).near = s.near ∧ (State.countFrame s ep).off = s.off := by
  unfold State.countFrame; (repeat' split) <;> simp

@[simp] theorem State.irair_keeps (s : State) (op : Nat) (f : Sys2Proof.Frame) :
    (State.irair s op f).pending = s.pending := by
  have base (t : State) (op : Nat) (f : Sys2Proof.Frame) (h : t.pending = s.pending) :
      (match t.irSess f.session with
        | some i =>
          if f.version = 1 then t.inSession op f.session i f
          else
            match t.unauth with
            | some u => u.sendFrames f.ep [respond f op stVersion [] none]
            | none => t.dropFrame
        | none =>
          match t.unauth with
          | some u => if f.version = 1 then u.noSession op f else u.sendFrames f.ep [respond f op stVersion [] none]
          | none => t.dropFrame).pending = s.pending := by
    have hu (u : State) (hu : t.unauth = some u) : u.pending = s.pending := (State.unauth_pending _ _ hu).trans h
    split
    · split
      · simpa using h
      · split
        · rename_i u e; simpa using hu _ e
        · simpa using h
    · split
      · rename_i u e; split <;> simpa using hu _ e
      · simpa using h
  unfold State.irair
  split
  · rfl
  · dsimp only
    split
    · simp
    · exact base _ _ _ (by simp)

end Sys2Proof.Machine
end

