-- ==== Sys2Proof/Laws/Sparse.lean ====
section
/-! SUPPORT. Sparse stores: reading after a write, and the canonical form, which every operation of a store and of near and far memory
keeps. -/

namespace Sys2Proof.Machine

/-! ### Reading after a write -/

@[simp] theorem lookupL_insertL_self {α : Type} (d : α) (l : List (Nat × α)) (k : Nat) (v : α) : lookupL d (insertL l k v) k = v := by
  induction l with
  | nil => simp [insertL, lookupL]
  | cons e r ih =>
    obtain ⟨a, w⟩ := e
    by_cases h : k = a
    · simp [insertL, lookupL, h]
    · by_cases g : k < a
      · simp [insertL, lookupL, h, g]
      · simp [insertL, lookupL, h, g, ih]

theorem lookupL_insertL_ne {α : Type} (d : α) (l : List (Nat × α)) (k j : Nat) (v : α) (n : j ≠ k) :
    lookupL d (insertL l k v) j = lookupL d l j := by
  induction l with
  | nil => simp [insertL, lookupL, n]
  | cons e r ih =>
    obtain ⟨a, w⟩ := e
    by_cases h : k = a
    · subst h; simp [insertL, lookupL, n]
    · by_cases g : k < a
      · simp [insertL, lookupL, h, g, n]
      · simp [insertL, lookupL, h, g, ih]

/-- What is put at a key is read there. -/
@[simp] theorem SMap.get_put_self {α : Type} (m : SMap α) (d : α) (k : Nat) (v : α) : (m.put k v).get d k = v :=
  lookupL_insertL_self d m.entries k v

/-- A put leaves every other key alone. -/
theorem SMap.get_put_ne {α : Type} (m : SMap α) (d : α) (k j : Nat) (v : α) (n : j ≠ k) : (m.put k v).get d j = m.get d j :=
  lookupL_insertL_ne d m.entries k j v n

/-! ### Rising keys -/

theorem risingFrom_weaken {α : Type} (l : List (Nat × α)) (a b : Nat) (h : risingFrom (some b) l = true) (g : a ≤ b) :
    risingFrom (some a) l = true := by
  cases l with
  | nil => rfl
  | cons e r =>
    obtain ⟨c, w⟩ := e
    simp only [risingFrom, Bool.and_eq_true, decide_eq_true_eq] at h ⊢
    exact ⟨by omega, h.2⟩

theorem rising_none_of_some {α : Type} (l : List (Nat × α)) (a : Nat) (h : risingFrom (some a) l = true) :
    risingFrom none l = true := by
  cases l with
  | nil => rfl
  | cons e r =>
    simp only [risingFrom, Bool.and_eq_true] at h ⊢
    exact h.2

theorem risingFrom_insertL {α : Type} (l : List (Nat × α)) (a k : Nat) (v : α) (h : risingFrom (some a) l = true) (g : a < k) :
    risingFrom (some a) (insertL l k v) = true := by
  induction l generalizing a with
  | nil => simp [insertL, risingFrom, g]
  | cons e r ih =>
    obtain ⟨b, w⟩ := e
    simp only [risingFrom, Bool.and_eq_true, decide_eq_true_eq] at h
    by_cases p : k = b
    · subst p; simp [insertL, risingFrom, g, h.2]
    · by_cases q : k < b
      · simp [insertL, risingFrom, p, q, g, h.2]
      · have u : b < k := by omega
        simp [insertL, risingFrom, p, q, h.1, ih b h.2 u]

theorem rising_insertL {α : Type} (l : List (Nat × α)) (k : Nat) (v : α) (h : risingFrom none l = true) :
    risingFrom none (insertL l k v) = true := by
  cases l with
  | nil => rfl
  | cons e r =>
    obtain ⟨b, w⟩ := e
    simp only [risingFrom] at h
    by_cases p : k = b
    · subst p; simpa [insertL, risingFrom] using h
    · by_cases q : k < b
      · simp [insertL, risingFrom, p, q, h]
      · have u : b < k := by omega
        simp [insertL, risingFrom, p, q, risingFrom_insertL r b k v h u]

theorem risingFrom_eraseL {α : Type} (l : List (Nat × α)) (a k : Nat) (h : risingFrom (some a) l = true) :
    risingFrom (some a) (eraseL l k) = true := by
  induction l generalizing a with
  | nil => rfl
  | cons e r ih =>
    obtain ⟨b, w⟩ := e
    simp only [risingFrom, Bool.and_eq_true, decide_eq_true_eq] at h
    by_cases p : k = b
    · simp only [eraseL, if_pos p]; exact ih a (risingFrom_weaken r a b h.2 (by omega))
    · simp [eraseL, risingFrom, p, h.1, ih b h.2]

theorem rising_eraseL {α : Type} (l : List (Nat × α)) (k : Nat) (h : risingFrom none l = true) : risingFrom none (eraseL l k) = true := by
  induction l with
  | nil => rfl
  | cons e r ih =>
    obtain ⟨b, w⟩ := e
    simp only [risingFrom] at h
    by_cases p : k = b
    · simp only [eraseL, if_pos p]; exact ih (rising_none_of_some r b h)
    · simp [eraseL, risingFrom, p, risingFrom_eraseL r b k h]

theorem SMap.rising_put {α : Type} (m : SMap α) (k : Nat) (v : α) (h : m.rising = true) : (m.put k v).rising = true :=
  rising_insertL m.entries k v h

theorem SMap.rising_erase {α : Type} (m : SMap α) (k : Nat) (h : m.rising = true) : (m.erase k).rising = true :=
  rising_eraseL m.entries k h

/-! ### Reading after a memory write -/

theorem lookupL_eraseL {α : Type} (d : α) (l : List (Nat × α)) (k j : Nat) :
    lookupL d (eraseL l k) j = if j = k then d else lookupL d l j := by
  induction l with
  | nil => simp [eraseL, lookupL]
  | cons e r ih =>
    obtain ⟨b, w⟩ := e
    by_cases p : k = b
    · subst p; simp only [eraseL, lookupL]; split <;> simp_all
    · simp only [eraseL, if_neg p, lookupL, ih]
      by_cases u : j = b
      · subst u; simp [Ne.symm p]
      · simp [u]

/-- Reading a memory after a write: the value at its key, everything else as before. -/
theorem SMap.get_write {α : Type} [DecidableEq α] (m : SMap α) (d : α) (k j : Nat) (v : α) :
    (m.write d k v).get d j = if j = k then v else m.get d j := by
  unfold SMap.write
  by_cases e : v = d
  · subst e; simpa [SMap.get, SMap.erase] using lookupL_eraseL v m.entries k j
  · by_cases g : j = k
    · subst g; simp [e]
    · simp [e, g, SMap.get_put_ne m d k j v g]

/-! ### The canonical form -/

theorem all_insertL {α : Type} (p : Nat × α → Bool) (l : List (Nat × α)) (k : Nat) (v : α) (h : l.all p = true) (g : p (k, v) = true) :
    (insertL l k v).all p = true := by
  induction l with
  | nil => simp [insertL, g]
  | cons e r ih =>
    obtain ⟨b, w⟩ := e
    simp only [List.all_cons, Bool.and_eq_true] at h
    unfold insertL
    split
    · simp only [List.all_cons, Bool.and_eq_true]; exact ⟨g, h.2⟩
    · split
      · simp only [List.all_cons, Bool.and_eq_true]; exact ⟨g, h.1, h.2⟩
      · simp only [List.all_cons, Bool.and_eq_true]; exact ⟨h.1, ih h.2⟩

theorem all_eraseL {α : Type} (p : Nat × α → Bool) (l : List (Nat × α)) (k : Nat) (h : l.all p = true) : (eraseL l k).all p = true := by
  induction l with
  | nil => rfl
  | cons e r ih =>
    obtain ⟨b, w⟩ := e
    simp only [List.all_cons, Bool.and_eq_true] at h
    unfold eraseL
    split
    · exact ih h.2
    · simp only [List.all_cons, Bool.and_eq_true]; exact ⟨h.1, ih h.2⟩

/-- A write keeps the canonical form. -/
theorem SMap.wf_write {α : Type} [DecidableEq α] (m : SMap α) (d : α) (k : Nat) (v : α) (h : m.wf d = true) : (m.write d k v).wf d = true := by
  unfold SMap.wf at h ⊢
  rw [Bool.and_eq_true] at h ⊢
  unfold SMap.write
  by_cases e : v = d
  · rw [if_pos e]; exact ⟨m.rising_erase k h.1, all_eraseL _ m.entries k h.2⟩
  · rw [if_neg e]; exact ⟨m.rising_put k v h.1, all_insertL _ m.entries k v h.2 (by simp [e])⟩

theorem SMap.wf_foldl {α β : Type} [DecidableEq α] (d : α) (key : β → Nat) (val : SMap α → β → α) (l : List β) (m : SMap α)
    (h : m.wf d = true) : (l.foldl (fun m b => m.write d (key b) (val m b)) m).wf d = true := by
  induction l generalizing m with
  | nil => exact h
  | cons b l ih => exact ih _ (m.wf_write d (key b) (val m b) h)

/-! ### Near and far memory -/

theorem Mem.wf_iff (m : Mem) : m.wf = true ↔ m.words.wf 0 = true ∧ m.marks.wf false = true := by
  unfold Mem.wf; rw [Bool.and_eq_true]

theorem Mem.wf_empty : Mem.empty.wf = true := by decide

/-- A write of one copy keeps the form. -/
theorem Mem.wf_writeCopy (m : Mem) (a : Nat) (data : List PNt) (h : m.wf = true) : (m.writeCopy a data).wf = true := by
  rw [Mem.wf_iff] at h ⊢
  have p (l : List (Nat × Nat × List PNt)) := SMap.wf_foldl (0 : Word) (fun q : Nat × Nat × List PNt => q.1)
    (fun ws q => mergeWord (ws.get 0 q.1) q.2.1 q.2.2) l m.words h.1
  have q (l : List Nat) := SMap.wf_foldl false (fun b : Nat => b) (fun _ b => m.markAfter a data b) l m.marks h.2
  exact ⟨p (pieces a data), q (blocksOf a data.length)⟩

/-- The part of a write that goes to a mirror copy keeps the form. -/
theorem Mem.wf_writeMirror (a : Nat) (data : List PNt) (m : Mem) (r : Mirror) (h : m.wf = true) : (Mem.writeMirror a data m r).wf = true := by
  unfold Mem.writeMirror
  simp only
  split
  · exact Mem.wf_writeCopy m _ _ h
  · exact h

/-- A write keeps the form. -/
theorem Mem.wf_write (m : Mem) (a : Nat) (data : List PNt) (h : m.wf = true) : (m.write a data).wf = true := by
  have key : ∀ (l : List Mirror) (m : Mem), m.wf = true → (l.foldl (Mem.writeMirror a data) m).wf = true := by
    intro l
    induction l with
    | nil => intro m h; exact h
    | cons r l ih => intro m h; exact ih _ (Mem.wf_writeMirror a data m r h)
  exact key m.mirrors _ (Mem.wf_writeCopy m a data h)

/-- A write of words keeps the form. -/
theorem Mem.wf_writeWords (m : Mem) (a : Nat) (ws : List Word) (h : m.wf = true) : (m.writeWords a ws).wf = true := Mem.wf_write m a _ h

/-- Poisoning a block keeps the form. -/
theorem Mem.wf_poison (m : Mem) (a : Nat) (h : m.wf = true) : (m.poison a).wf = true := by
  rw [Mem.wf_iff] at h
  unfold Mem.poison
  split
  · rw [Mem.wf_iff]; exact ⟨h.1, SMap.wf_write _ _ _ _ (SMap.wf_write _ _ _ _ h.2)⟩
  · rw [Mem.wf_iff]; exact ⟨h.1, SMap.wf_write _ _ _ _ h.2⟩

/-- Taking a mark away keeps the form. -/
theorem Mem.wf_unmark (m : Mem) (a : Nat) (h : m.wf = true) : (m.unmark a).wf = true := by
  have hm := SMap.wf_write m.marks false (a / 64) false (m.wf_iff.mp h).2
  unfold Mem.unmark
  split
  · exact (Mem.wf_iff _).mpr ⟨(m.wf_iff.mp h).1, SMap.wf_write _ _ _ _ hm⟩
  · exact (Mem.wf_iff _).mpr ⟨(m.wf_iff.mp h).1, hm⟩

/-- A request of a COPY keeps the canonical form. -/
theorem Mem.wf_writePart (m : Mem) (a : Nat) (data : List PNt) (h : m.wf = true) : (m.writePart a data).wf = true := by
  unfold Mem.writePart
  refine Mem.wf_write _ a data ?_
  generalize blocksOf a data.length = l
  induction l generalizing m with
  | nil => exact h
  | cons b l ih =>
    rw [List.foldl_cons]
    refine ih _ ?_
    split
    · exact m.wf_unmark _ h
    · exact h

/-- Copying a block keeps the form. -/
theorem Mem.wf_copyBlock (m : Mem) (src dst : Nat) (h : m.wf = true) : (m.copyBlock src dst).wf = true := Mem.wf_writeCopy m _ _ h

/-- Copying a range keeps the form. -/
theorem Mem.wf_copyRange (m : Mem) (src dst n : Nat) (h : m.wf = true) : (m.copyRange src dst n).wf = true := by
  induction n generalizing m with
  | zero => exact h
  | succ n ih => exact ih _ (Mem.wf_copyBlock m _ _ h)

end Sys2Proof.Machine
end

