-- ==== Sys2Proof/Laws/Take.lean ====
section
/-! SUPPORT. What the passing of time leaves alone, and how the part takes over a core's work that has no effects. -/

namespace Sys2Proof.Machine

theorem Core.sameWork_refl (a : Core) : a.sameWork a := rfl

theorem Core.sameWork_trans {a b c : Core} (h : a.sameWork b) (g : b.sameWork c) : a.sameWork c := by
  unfold Core.sameWork at *
  rw [h] at g
  exact g

theorem State.timeOnly_refl (s : State) : s.timeOnly s := ⟨rfl, rfl, fun _ => rfl, fun _ => rfl, fun _ _ _ => rfl⟩

theorem State.timeOnly_trans {s t u : State} (h : s.timeOnly t) (g : t.timeOnly u) : s.timeOnly u := by
  refine ⟨g.mem.trans h.mem, ?_, fun k => Core.sameWork_trans (h.cores k) (g.cores k), fun n => (g.progs n).trans (h.progs n),
    fun k d e => (g.dict k d e).trans (h.dict k d e)⟩
  have a := h.beside; have b := g.beside
  unfold State.sameBeside at *
  rw [a] at b; exact b

theorem State.timeOnly_foldl {α : Type} (f : State → α → State) (hf : ∀ (s : State) a, s.timeOnly (f s a)) (l : List α) (s : State) :
    s.timeOnly (l.foldl f s) := by
  induction l generalizing s with
  | nil => exact s.timeOnly_refl
  | cons a l ih => exact State.timeOnly_trans (hf s a) (ih (f s a))

theorem State.core_setCore (s : State) (c k : Nat) (x : Core) : (s.setCore c x).core k = if k = c then x else s.core k := by
  unfold State.setCore State.core
  split
  · rename_i h; subst h; simp
  · rename_i h; exact SMap.get_put_ne _ _ _ _ _ h

theorem State.timeOnly_setCore (s : State) (c : Nat) (x : Core) (h : (s.core c).sameWork x) : s.timeOnly (s.setCore c x) := by
  refine ⟨rfl, rfl, fun k => ?_, fun _ => rfl, fun _ _ _ => rfl⟩
  rw [s.core_setCore]
  split
  · rename_i e; subst e; exact h
  · rfl

theorem find_insertL {α : Type} (l : List (Nat × α)) (n m : Nat) (v : α) :
    ((insertL l n v).find? fun e => e.1 == m).map (·.2) = if m = n then some v else (l.find? fun e => e.1 == m).map (·.2) := by
  induction l with
  | nil =>
    by_cases h : m = n
    · simp [insertL, h]
    · have : (n == m) = false := by simpa using Ne.symm h
      simp [insertL, h, List.find?, this]
  | cons e r ih =>
    obtain ⟨a, w⟩ := e
    unfold insertL
    by_cases h : n = a
    · subst h
      by_cases g : m = n
      · subst g; simp
      · have : (n == m) = false := by simpa using Ne.symm g
        simp [List.find?, this, g]
    · by_cases p : n < a
      · by_cases g : m = n
        · subst g; simp [h, p]
        · have : (n == m) = false := by simpa using Ne.symm g
          simp [h, p, List.find?_cons, this, g]
      · simp only [if_neg h, if_neg p]
        by_cases g : a = m
        · subst g; simp [Ne.symm h]
        · have : (a == m) = false := by simpa using g
          simp only [List.find?_cons, this]
          exact ih

theorem State.prog_setProg (s : State) (n m : Nat) (p : Prog) : (s.setProg n p).prog m = if m = n then some p else s.prog m := by
  unfold State.setProg State.prog SMap.put
  exact find_insertL s.progs.entries n m p

theorem State.lookup_setAt (s : State) (i j k v x d : Nat) (h : x ≠ odKey i j k) :
    lookupL d (s.setAt i j k v).dict.entries x = lookupL d s.dict.entries x := by
  unfold State.setAt SMap.write
  simp only
  split
  · simp [SMap.erase, lookupL_eraseL, h]
  · exact lookupL_insertL_ne d _ _ _ _ h

theorem State.timeOnly_countStall (n : Nat) (s : State) (c : Stall) : s.timeOnly (s.countStall n c) := by
  unfold State.countStall
  split
  · exact s.timeOnly_setCore _ _ rfl
  · exact s.timeOnly_setCore _ _ rfl
  · exact ⟨rfl, rfl, fun _ => rfl, fun _ => rfl, fun k d h => s.lookup_setAt _ _ _ _ _ _ h⟩
  · exact s.timeOnly_refl

theorem Core.gain_same (c : Core) (n : Nat) : c.gain n = { c with te := { c.te with regs := (c.gain n).te.regs } } := by
  unfold Core.gain; split <;> rfl

theorem State.timeOnly_gainTokens (n : Nat) (s : State) (l : List Nat) : s.timeOnly (s.gainTokens n l) := by
  unfold State.gainTokens
  split
  · exact s.timeOnly_refl
  · refine State.timeOnly_foldl _ (fun s a => s.timeOnly_setCore _ _ ?_) l s
    show _ = _
    rw [(s.core a).gain_same n]

theorem State.timeOnly_setProg (s : State) (n : Nat) (p q : Prog) (h : s.prog n = some p)
    (g : q = { p with stallCycles := q.stallCycles, stepStall := q.stepStall, stalls := q.stalls }) : s.timeOnly (s.setProg n q) := by
  refine ⟨rfl, rfl, fun _ => rfl, fun m => ?_, fun _ _ _ => rfl⟩
  rw [s.prog_setProg]
  split
  · rename_i e; subst e; rw [h]; simp only [Option.map_some]; rw [g]
  · rfl

theorem State.timeOnly_stallPass (n : Nat) (s : State) (k : Nat) : s.timeOnly (s.stallPass n k) := by
  unfold State.stallPass
  split
  · exact s.timeOnly_refl
  · rename_i p hp
    split
    · refine State.timeOnly_trans ?_ (State.timeOnly_gainTokens _ _ _)
      exact State.timeOnly_trans (s.timeOnly_setProg k p _ hp rfl) (State.timeOnly_foldl _ (fun s c => s.timeOnly_countStall n c) _ _)
    · split
      · exact State.timeOnly_trans (s.timeOnly_setProg k p _ hp rfl) (State.timeOnly_gainTokens _ _ _)
      · exact s.timeOnly_refl

/-- Passing cycles moves time, and what standing still counts, and nothing else. -/
theorem State.timeOnly_addCycles (s : State) (n : Nat) : s.timeOnly (s.addCycles n) := by
  unfold State.addCycles
  refine State.timeOnly_trans ?_ (State.timeOnly_foldl _ (fun s k => s.timeOnly_stallPass n k) _ _)
  exact ⟨rfl, rfl, fun _ => rfl, fun _ => rfl, fun _ _ _ => rfl⟩

theorem State.timeOnly_pace (s : State) (c : Nat) : s.timeOnly (s.pace c) := by
  simp only [State.pace]
  split
  · exact s.timeOnly_refl
  · split
    · exact s.timeOnly_refl
    · exact s.timeOnly_addCycles _

theorem State.timeOnly_chipId {s t : State} (h : s.timeOnly t) : t.chipId = s.chipId := by
  unfold State.chipId State.val State.valAt
  have hf : t.fuse = s.fuse := by rw [h.beside]
  rw [hf]
  exact h.dict _ _ (by decide)

theorem Core.sameWork_net {a b : Core} (h : a.sameWork b) : b.te.net = a.te.net ∧ b.me = a.me ∧ b.prog = a.prog := by
  rw [h]; exact ⟨rfl, rfl, rfl⟩

/-- Work without effects, of a program that is not being stopped, is taken over as it is: the core, memory, and the time it took. -/
theorem State.take_quiet (s : State) (c : Nat) (y : Cx) (he : y.effs = []) (hn : (y.c.te.net.filter (s.goesOff y.c)) = [])
    (hk : ∀ n p, y.c.prog = some n → s.prog n = some p → p.stopping = false) :
    ({ s.setCore c y.c with mem := y.mem }).timeOnly (s.take c y) := by
  have h := State.timeOnly_pace { s.setCore c y.c with mem := y.mem } c
  have hc : Core.sameWork y.c (({ s.setCore c y.c with mem := y.mem } : State).pace c |>.core c) := by
    have := h.cores c
    have e : (({ s.setCore c y.c with mem := y.mem } : State).core c) = y.c := by
      show (s.setCore c y.c).core c = y.c
      rw [s.core_setCore]; simp
    rw [e] at this; exact this
  obtain ⟨h1, h2, h3⟩ := Core.sameWork_net hc
  have hid := State.timeOnly_chipId h
  unfold State.take
  generalize ({ s.setCore c y.c with mem := y.mem } : State).pace c = q at *
  have hship : q.ship c = q := by
    unfold State.ship
    have : ((q.core c).te.net.filter (q.goesOff (q.core c))) = [] := by
      rw [h1]
      have : q.goesOff (q.core c) = s.goesOff y.c := by
        funext d
        unfold State.goesOff Core.sendPeer Me.endOf State.isHere
        rw [h2, hid]; rfl
      rw [this]; exact hn
    simp [this]
  simp only [hship, he]
  have heff : q.effectsAt c [] = q := rfl
  rw [heff]
  split
  · rename_i n hpn
    unfold State.settleStop
    split
    · rename_i p hp
      have := h.progs n
      rw [hp] at this
      cases hs : s.prog n with
      | none =>
        have e : ({ s.setCore c y.c with mem := y.mem } : State).prog n = none := hs
        rw [e] at this; cases this
      | some p' =>
        have e : ({ s.setCore c y.c with mem := y.mem } : State).prog n = some p' := hs
        rw [e] at this
        simp only [Option.map_some, Option.some.injEq] at this
        have hst : p.stopping = p'.stopping := by injection this
        have e2 : p.stopping = false := hst.trans (hk n p' (h3 ▸ hpn) hs)
        simp [e2]; exact h
    · exact h
  · exact h

end Sys2Proof.Machine
end

