-- ==== Sys2Proof/Laws/Issue.lean ====
section
/-! SUPPORT. The issue of an instruction that stands ready at the head of its engine, said once for every instruction. -/

namespace Sys2Proof.Machine

theorem Core.advance_eq (c : Core) (t : Nat) : c.advance t = { c with now := (c.advance t).now, te := { c.te with regs := (c.advance t).te.regs } } := by
  unfold Core.advance
  split
  · rfl
  · rw [c.gain_same]

@[simp] theorem Core.advance_engs (c : Core) (t) : (c.advance t).engs = c.engs := by rw [c.advance_eq t]
@[simp] theorem Core.advance_coup (c : Core) (t) : (c.advance t).coup = c.coup := by rw [c.advance_eq t]
@[simp] theorem Core.advance_nextTid (c : Core) (t) : (c.advance t).nextTid = c.nextTid := by rw [c.advance_eq t]
@[simp] theorem Core.advance_sregs (c : Core) (t) : (c.advance t).sregs = c.sregs := by rw [c.advance_eq t]
@[simp] theorem Core.advance_pend (c : Core) (t) : (c.advance t).pend = c.pend := by rw [c.advance_eq t]
@[simp] theorem Core.advance_infl (c : Core) (t) : (c.advance t).infl = c.infl := by rw [c.advance_eq t]
@[simp] theorem Core.eng_advance (c : Core) (t e) : (c.advance t).eng e = c.eng e := by simp [Core.eng]

theorem foldl_min_of (l : List Nat) (t : Nat) (h : l.all (fun d => decide (t ≤ d)) = true) : l.foldl min t = t := by
  induction l with
  | nil => rfl
  | cons a l ih =>
    simp only [List.all_cons, Bool.and_eq_true, decide_eq_true_eq] at h
    simp only [List.foldl_cons, Nat.min_eq_left h.1]
    exact ih h.2

/-- A core in which nothing takes effect and nothing is in turn before cycle `t` comes to that cycle as it is. -/
theorem runTo_quiet (x : Cx) (env : Env) (t : Nat) (h : x.c.quietTo env t = true) (f : x.failed = false) :
    x.runTo env t = { x with c := x.c.advance t } := by
  unfold Core.quietTo at h
  simp only [Bool.or_eq_true, Bool.and_eq_true, decide_eq_true_eq, Bool.not_eq_true'] at h
  by_cases ht : t ≤ x.c.now
  · have e : x.c.advance t = x.c := by unfold Core.advance; rw [if_pos ht]
    rw [e]
    unfold Cx.runTo
    cases t - x.c.now with
    | zero => rfl
    | succ n => unfold Cx.runAux; simp [ht]
  · obtain h | ⟨⟨hb, hd⟩, hp⟩ := h
    · exact absurd h ht
    · have hs : x.c.nextStop env t = t := by
        unfold Core.nextStop
        rw [foldl_min_of _ _ hp]
        simp only
        split
        · rename_i d e
          rw [e] at hd; simp at hd
          split <;> omega
        · rfl
      have hpass : x.pass env t = { x with c := x.c.advance t } := by
        have hdue : x.c.dueNow env = false := by
          unfold Core.dueNow dueBy
          cases e : x.c.nextDue env with
          | none => rfl
          | some d => rw [e] at hd; simp at hd ⊢; omega
        unfold Cx.pass
        simp [hdue, hs]
      unfold Cx.runTo
      obtain ⟨n, hn⟩ : ∃ n, t - x.c.now = n + 1 := ⟨t - x.c.now - 1, by omega⟩
      rw [hn]
      unfold Cx.runAux
      have hb1 : x.c.blocked env = false := by unfold Core.stands at hb; simp at hb; exact hb.1
      have hb2 : x.c.ahead env = false := by unfold Core.stands at hb; simp at hb; exact hb.2
      simp only [f, hb1, hb2, ht, decide_false, Bool.or_self, Bool.false_eq_true, if_false, hpass]
      have hnow : (x.c.advance t).now = t := by unfold Core.advance; rw [if_neg ht]
      cases n with
      | zero => rfl
      | succ n => unfold Cx.runAux; simp [hnow]

theorem atHead_of (s : State) (c eng : Nat) (w : Word) (h : s.Head c eng w) :
    (Cx.of (s.core c) s.mem).atHead (s.env c) eng w = .ready ⟨(s.core c).advance (s.issueCycle c eng), s.mem, [], false⟩ (s.issueCycle c eng) := by
  unfold Cx.atHead
  have hf : (Cx.of (s.core c) s.mem).failed = false := rfl
  have hr := runTo_quiet (Cx.of (s.core c) s.mem) (s.env c) (s.issueCycle c eng) h.quiet hf
  have e : max (Cx.of (s.core c) s.mem).c.now ((Cx.of (s.core c) s.mem).c.eng eng).headFree = s.issueCycle c eng := rfl
  have hh := h.head
  have ha := h.active
  have hb := h.boundary
  have hl := h.first
  have hn : s.issueCycle c eng ≤ ((s.core c).advance (s.issueCycle c eng)).now := by
    unfold Core.advance; split <;> simp_all
  have hc : (if ((s.core c).eng eng).here.held = none ∧ ((s.core c).eng eng).here.waited = false then headCheck (s.core c).coup eng w else none) = none := by
    split
    · rename_i g
      exact h.check g.1 g.2
    · rfl
  have hw := h.wait
  simp only [e, hr]
  simp only [Cx.of, Cx.reached, Cx.failed] at *
  simp [hh, ha, hb, hl, hn, hc, hw]

theorem issue_of (s : State) (c eng : Nat) (w : Word) (h : s.Head c eng w) (body : Iss → Cx → OpRes) :
    (Cx.of (s.core c) s.mem).issue (s.env c) eng w body =
      Cx.issueAt ⟨(s.core c).advance (s.issueCycle c eng), s.mem, [], false⟩ (s.env c) eng (s.issueCycle c eng) w body := by
  unfold Cx.issue; rw [atHead_of s c eng w h]

/-- Where a core's time stops at no other core, its work is taken over as it is. -/
theorem work_eq (s : State) (c : Nat) (f : Env → Cx → Cx) (h : s.coreRuns c = true)
    (g : (f (s.env c) (Cx.of (s.core c) s.mem)).late = false) : s.work c f = s.take c (f (s.env c) (Cx.of (s.core c) s.mem)) := by
  unfold State.work
  rw [show (2 : Nat) ^ 48 = (2 ^ 48 - 1) + 1 from rfl]
  simp [State.together, h, g]

@[simp] theorem Cx.emit_late (x : Cx) (l : List Eff) : (x.emit l).late = x.late := rfl

/-- An issue waits for no other core. -/
theorem issueAt_late (x : Cx) (env : Env) (eng t : Nat) (w : Word) (body : Iss → Cx → OpRes) (h : x.late = false) :
    (x.issueAt env eng t w body).late = false := by
  unfold Cx.issueAt
  simp only
  split
  · simp [h]
  · rfl

theorem onCore_of (s : State) (c eng : Nat) (w : Word) (h : s.Head c eng w) (body : Env → Iss → Cx → OpRes) :
    issueOn s c eng w body = .next (s.take c (Cx.issueAt ⟨(s.core c).advance (s.issueCycle c eng), s.mem, [], false⟩ (s.env c) eng (s.issueCycle c eng) w (body (s.env c)))) := by
  unfold issueOn onCore
  have hi := issue_of s c eng w h (body (s.env c))
  rw [if_pos h.core, work_eq s c _ h.runs (by rw [hi]; exact issueAt_late _ _ _ _ _ _ rfl)]
  exact congrArg (fun y => Host.Outcome.next (s.take c y)) hi

theorem Engine.ctx_setCtx (g : Engine) (x : Nat) (k : Ctx) : (g.setCtx x k).ctx x = k := by
  simp [Engine.ctx, Engine.setCtx]

@[simp] theorem Core.eng_setEng (c : Core) (e : Nat) (g : Engine) : (c.setEng e g).eng e = g := by simp [Core.eng, Core.setEng]

theorem lookupL_map {α : Type} (d : α) (f : Nat → α → α) (l : List (Nat × α)) (k : Nat) :
    lookupL d (l.map fun e => (e.1, f e.1 e.2)) k = if l.any (fun e => e.1 == k) = true then f k (lookupL d l k) else d := by
  induction l with
  | nil => rfl
  | cons e r ih =>
    obtain ⟨a, v⟩ := e
    by_cases h : k = a
    · subst h; simp [lookupL]
    · have g : (((a, v) :: r).any fun e => e.1 == k) = r.any fun e => e.1 == k := by simp [Ne.symm h]
      simp only [g, List.map_cons, lookupL, if_neg h, ih]

theorem lookupL_none {α : Type} (d : α) (l : List (Nat × α)) (k : Nat) (h : l.any (fun e => e.1 == k) = false) : lookupL d l k = d := by
  induction l with
  | nil => rfl
  | cons e r ih =>
    obtain ⟨a, v⟩ := e
    simp at h
    simp [lookupL, Ne.symm h.1]
    exact ih (by simpa using h.2)

theorem eng_settle (c : Core) (e : Nat) : ∃ st, c.settleHalts.eng e = { c.eng e with st := st } := by
  have := lookupL_map Engine.reset (fun e g => if g.haltPend && g.st != .halted && !(c.infl.any fun i => i.eng == e) &&
    !(g.st == .draining && e == 5 && c.padOut) then { g with st := .halted } else g) c.engs.entries e
  have h2 : c.settleHalts.eng e = _ := this
  rw [h2]
  split
  · split
    · exact ⟨_, rfl⟩
    · exact ⟨(lookupL .reset c.engs.entries e).st, rfl⟩
  · rename_i h
    simp only [Bool.not_eq_true] at h
    refine ⟨.off, ?_⟩
    have : c.eng e = Engine.reset := lookupL_none _ _ _ h
    rw [this]; rfl

theorem issues_of (s : State) (c eng : Nat) (w : Word) (h : s.Head c eng w) (body : Env → Iss → Cx → OpRes)
    (g : (s.opHere c eng w body).errs = []) : s.Issues c eng w (s.opHere c eng w body) (issueOn s c eng w body) := by
  rw [onCore_of s c eng w h]
  refine ⟨_, rfl, ?_⟩
  have key : Cx.issueAt ⟨(s.core c).advance (s.issueCycle c eng), s.mem, [], false⟩ (s.env c) eng (s.issueCycle c eng) w (body (s.env c)) =
      (let r := s.opHere c eng w body
       let i := s.issueAs c eng
       { r.x with c := ((r.x.c.leave (s.env c) i w r.hold r.after).note i w r).settleHalts, late := false }) := by
    unfold Cx.issueAt
    have hs := h.signal
    have g' := g
    unfold State.opHere State.issueAs State.issueCore at g'
    unfold State.issueCore at hs
    simp only [Core.eng_advance, Core.advance_nextTid] at *
    rw [if_pos hs, List.nil_append, g']
    rfl
  rw [key]
  generalize s.opHere c eng w body = r
  have hn : ∀ k : Core, (k.note (s.issueAs c eng) w r).eng eng = k.eng eng := by intro k; unfold Core.note Core.eng; split <;> rfl
  refine ⟨rfl, rfl, ?_, ?_, ?_, ?_, ?_⟩
  · simp only [Core.settleHalts, Core.note, Core.leave, Core.setEng]
    split <;> rfl
  · obtain ⟨st, hst⟩ := eng_settle (((r.x.c.leave (s.env c) (s.issueAs c eng) w r.hold r.after).note (s.issueAs c eng) w r)) eng
    simp only
    rw [hst, hn]
    simp [Core.leave, State.issueAs, Engine.setCtx]
  · obtain ⟨st, hst⟩ := eng_settle (((r.x.c.leave (s.env c) (s.issueAs c eng) w r.hold r.after).note (s.issueAs c eng) w r)) eng
    simp only
    rw [hst, hn]
    simp [Core.leave, State.issueAs, Engine.setCtx, Engine.ctx]
  · intro d hd ht
    simp only [Core.settleHalts, Core.note]
    rw [if_neg]
    · simp [State.issueAs, hd]
    · simp [hd, State.issueAs]; intro h1; omega
  · intro hd
    simp only [Core.settleHalts, Core.note]
    rw [if_neg]
    · simp [State.issueAs, hd]
    · simp [hd]

theorem consumeWait_sregs (c : Core) (e t w) : (c.consumeWait e t w).sregs = c.sregs ∧ (c.consumeWait e t w).prog = c.prog ∧ (c.consumeWait e t w).te = c.te ∧ (c.consumeWait e t w).me = c.me ∧
    (c.consumeWait e t w).pend = c.pend := by
  unfold Core.consumeWait Core.unhold Core.setEng
  simp only
  split <;> split <;> (try split) <;> exact ⟨rfl, rfl, rfl, rfl, rfl⟩

theorem advance_net (c : Core) (t) : (c.advance t).te.net = c.te.net ∧ (c.advance t).me = c.me ∧ (c.advance t).prog = c.prog := by
  rw [c.advance_eq t]; exact ⟨rfl, rfl, rfl⟩

theorem issueCore_sregs (s : State) (c e w) : (s.issueCore c e w).sregs = (s.core c).sregs ∧ (s.issueCore c e w).prog = (s.core c).prog ∧ (s.issueCore c e w).te.net = (s.core c).te.net ∧ (s.issueCore c e w).me = (s.core c).me ∧
    (s.issueCore c e w).pend = (s.core c).pend := by
  unfold State.issueCore
  have h := consumeWait_sregs ((s.core c).advance (s.issueCycle c e)) e (s.issueCycle c e) w
  have g := advance_net (s.core c) (s.issueCycle c e)
  simp only [h.1, h.2.1, h.2.2.1, h.2.2.2.1, h.2.2.2.2, g.1, g.2.1, g.2.2]
  exact ⟨(s.core c).advance_sregs _, trivial, trivial, trivial, (s.core c).advance_pend _⟩

theorem take_worked (s : State) (c : Nat) (y : Cx) (k : Core) (hk : y.c = k) (hm : y.mem = s.mem) (he : y.effs = [])
    (hn : (k.te.net.filter (s.goesOff k)) = []) (hs : ∀ n p, k.prog = some n → s.prog n = some p → p.stopping = false) :
    s.worked c k (.next (s.take c y)) := by
  subst hk
  have := State.take_quiet s c y he hn hs
  refine ⟨_, rfl, ?_⟩
  have e : ({ s.setCore c y.c with mem := y.mem } : State) = s.setCore c y.c := by rw [hm]; rfl
  rw [e] at this; exact this

theorem goesOff_me (s : State) (a b : Core) (h : a.me = b.me) : s.goesOff a = s.goesOff b := by
  funext d; unfold State.goesOff Core.sendPeer Me.endOf; rw [h]

theorem Core.setSreg_eq (c : Core) (t r : Nat) (v : PWord) :
    c.setSreg t r v = { c with sregs := (c.setSreg t r v).sregs, pend := (c.setSreg t r v).pend } := by
  unfold Core.setSreg; split <;> rfl

theorem Core.setSreg_pend (c : Core) (t : Nat) (d : BitVec 5) (v : PWord) :
    (c.setSreg t d.toNat v).pend = c.pend.filter fun p => !(d != 0 && p.sets t d.toNat) := by
  unfold Core.setSreg
  by_cases h : d = 0
  · subst h; exact (List.filter_eq_self.mpr fun _ _ => rfl).symm
  · have h' : d.toNat ≠ 0 := by intro e; apply h; exact BitVec.eq_of_toNat_eq (by simpa using e)
    have h2 : (d != 0) = true := by simpa using h
    simp only [h', h2, Bool.true_and, if_false]

theorem Core.setSreg_sreg (c : Core) (t : Nat) (d r : BitVec 5) (v : PWord) :
    (c.setSreg t d.toNat v).sreg r.toNat = if r = d ∧ d ≠ 0 then v else c.sreg r.toNat := by
  unfold Core.sreg Core.setSreg
  by_cases hd : d = 0
  · subst hd; simp
  · have hd' : d.toNat ≠ 0 := by intro e; apply hd; exact BitVec.eq_of_toNat_eq (by simpa using e)
    simp only [hd', if_false, hd, ne_eq, not_false_eq_true, and_true]
    by_cases hrd : r = d
    · subst hrd; simp [hd', SMap.get_write]
    · have : r.toNat ≠ d.toNat := fun e => hrd (BitVec.eq_of_toNat_eq e)
      simp [hrd, SMap.get_write, this]

/-- An SE operation that writes one register and completes in its issue cycle. -/
theorem wrote_of (s : State) (c : Nat) (w : Word) (h : s.Head c 0 w) (d : BitVec 5) (v : PWord) (body : Env → Iss → Cx → OpRes)
    (hb : ∀ env i x, x.c.sregs = (s.core c).sregs → body env i x = .now i { x with c := x.c.setSreg i.t d.toNat v }) :
    s.wroteSreg c w d v (issueOn s c 0 w body) := by
  have hr := hb (s.env c) (s.issueAs c 0) ⟨s.issueCore c 0 w, s.mem, [], false⟩ (issueCore_sregs s c 0 w).1
  have ho : s.opHere c 0 w body =
      .now (s.issueAs c 0) ⟨(s.issueCore c 0 w).setSreg (s.issueCycle c 0) d.toNat v, s.mem, [], false⟩ := hr
  obtain ⟨y, hy, hm, he, hc, hf, -⟩ := issues_of s c 0 w h body (by rw [ho]; rfl)
  rw [ho] at hm he hc hf
  obtain ⟨q1, q2, q3, q4, q5⟩ := issueCore_sregs s c 0 w
  have e : (OpRes.now (s.issueAs c 0) ⟨(s.issueCore c 0 w).setSreg (s.issueCycle c 0) d.toNat v, s.mem, [], false⟩).x.c =
    (s.issueCore c 0 w).setSreg (s.issueCycle c 0) d.toNat v := rfl
  rw [e, Core.setSreg_eq] at hc
  have hs : y.c.sregs = ((s.issueCore c 0 w).setSreg (s.issueCycle c 0) d.toNat v).sregs := by rw [hc]
  have hp : y.c.pend = ((s.issueCore c 0 w).setSreg (s.issueCycle c 0) d.toNat v).pend := by rw [hc]
  have hc' : y.c = { s.issueCore c 0 w with engs := y.c.engs, infl := y.c.infl, sregs := y.c.sregs, pend := y.c.pend, busyTo := y.c.busyTo } := by
    rw [hs, hp]; exact hc
  refine ⟨y.c, ?_, ?_, hc', ?_, hf⟩
  · rw [hy]
    refine take_worked s c y y.c rfl hm he ?_ ?_
    · rw [hc']; simp only [q3]
      have := goesOff_me s ({ s.issueCore c 0 w with engs := y.c.engs, infl := y.c.infl, sregs := y.c.sregs, pend := y.c.pend, busyTo := y.c.busyTo } : Core) (s.core c) q4
      rw [this]; exact h.calm
    · rw [hc']; simp only [q2]; exact h.kept
  · intro r
    have hr : y.c.sreg r.toNat = ((s.issueCore c 0 w).setSreg (s.issueCycle c 0) d.toNat v).sreg r.toNat := by unfold Core.sreg; rw [hs]
    rw [hr, Core.setSreg_sreg]
    unfold Core.sreg; rw [q1]
  · rw [hp, Core.setSreg_pend, q5]

end Sys2Proof.Machine
end

