-- ==== Sys2Proof/Tests/Slice0.lean ====
section
/-! SUPPORT. The model's own tests: what WellFormed refuses, instruction words written out from the spec's encodings, worked examples of the
spec, and for each obligation with hypotheses a state and operands that meet them. -/

namespace Sys2Proof.Tests

open Sys2Proof Sys2Proof.Machine

/-! ### What WellFormed refuses -/

theorem test_wf_core : wellFormed (.completionCycle 144) = false ∧ wellFormed (.completionCycle 143) = true := by decide
theorem test_wf_engine : wellFormed (.nop 0 6 ⟨false, 0, 0, 0, 0⟩) = false ∧ wellFormed (.nop 0 5 ⟨false, 0, 0, 0, 0⟩) = true := by decide
theorem test_wf_class : wellFormed (.regulatorRelease 0 4) = false ∧ wellFormed (.regulatorRelease 0 3) = true := by decide
theorem test_wf_dqueue : wellFormed (.queueDataLand 0 16 0 .none []) = false := by decide
theorem test_wf_dest : wellFormed (.mcastCopyLand 0 0 144) = false := by decide
theorem test_wf_credit : wellFormed (.creditGrant 0 16 ⟨0, false⟩) = false := by decide
theorem test_wf_end : wellFormed (.padConsumed 0 32) = false := by decide
theorem test_wf_combining : wellFormed (.contributionArrival 0 8 0 []) = false ∧ wellFormed (.contributionArrival 0 7 64 []) = false := by decide
theorem test_wf_stack : wellFormed (.restWindow 6) = false := by decide
theorem test_wf_region : wellFormed (.mirrorSyncDone 32) = false := by decide
theorem test_wf_bank : wellFormed (.bankWake 0 16) = false := by decide
theorem test_wf_jport : wellFormed (.ackTimeout 12) = false := by decide
theorem test_wf_lane : wellFormed (.laneLockLoss 0 4) = false := by decide
theorem test_wf_hport : wellFormed (.hostPortTrained 4) = false := by decide
theorem test_wf_queue : wellFormed (.load 4096) = false := by decide
theorem test_wf_window : wellFormed (.windowDrainTimeout 1024) = false := by decide
theorem test_wf_session : wellFormed (.evictWritten 1048576 true) = false := by decide
theorem test_wf_domain : wellFormed (.stretch 39) = false := by decide
theorem test_wf_enable : wellFormed (.coreEnable 3 0) = false := by decide
theorem test_wf_target : wellFormed (.registerWrite (.control 144 0) 0) = false := by decide

/-- A command that names no unit of the part stops with a fault of its own. -/
theorem test_stop_no_core : (match exec (.completionCycle 144) .reset with | .fault .noSuchCore => true | _ => false) = true := by decide

/-! ### States for the tests -/

/-- A part in operation: the domains run, memory is zeroed, and the near controller is the primary. -/
def up : State :=
  { State.reset with
    clocks := true, zeroed := true, nearSt := 1, farSt := 1, calibrated := true
    pins := { Pins.reset with held := 0, resetN := true }
    near := { Ctrl.reset with bit := true, state := 1 }, off := { Ctrl.reset with state := 1 } }

/-- A program on core 0 of one chip that runs its first step. -/
def prog : Prog :=
  { digest := 0, memDigest := 0, image := 0x100000000, size := 1024, profile := 1, feeder := true, train := false, multi := false
    cores := [0], members := [], streams := [⟨0, 0, 0, 0x100000200, 4⟩], marks := [], slots := .none, inputs := [], nearStacks := [], tokens := 0
    batch := none, starting := false, running := true, stopping := false, start := none, stop := none, base := 0, t0 := 0
    lat := up.latch, seed := 0, firstStep := 0, step := 0, committed := none, stalls := [], sched := 0, stallCycles := 0, stepStall := 0
    lost := 0, lastStep := 0, errRemounts := 0, wideRemounts := 0, stepErr := 0, stepWide := 0, trigs := [], remounting := false, errElse := false, widenReq := []
    overLogged := [], signals := [], batches := 0, slotSess := [], ready := [], readySent := false, release := none, doneSent := false, done := []
    merged := [], results := [], replayAt := none, stepNo := 0, stepped := [], ended := [] }

/-- Core 0 with one engine whose queue holds `ws`. -/
def coreOf (eng : Nat) (ws : List Word) : Core :=
  { Core.reset with
    prog := some 1, profile := 1
    engs := SMap.empty.put eng { Engine.reset with
      st := .running, ctxs := SMap.empty.put 0 { Ctx.reset with queue := ws, supplied := ws.length, total := 4 } } }

/-- The part with program `p` on core 0, which is `k`. -/
def part (p : Prog) (k : Core) : State := { up with progs := SMap.empty.put 1 p, cores := SMap.empty.put 0 k }

/-- The part whose core 0 has the instruction `w` at the head of engine `eng`. -/
def ready (eng : Nat) (w : Word) : State := part prog (coreOf eng [w])

/-- The conditions of `State.Head` as one test. -/
def headOk (s : State) (c eng : Nat) (w : Word) : Bool :=
  decide (c < 144) && s.coreRuns c && (match (s.core c).prog with
      | some n => (match s.prog n with | some p => !p.stopping | none => true)
      | none => true) &&
    ((s.core c).te.net.filter (s.goesOff (s.core c))).isEmpty && ((s.core c).eng eng).active &&
    ((s.core c).eng eng).here.head == some w && (s.core c).quietTo (s.env c) (s.issueCycle c eng) &&
    (headCheck (s.core c).coup eng w).isNone && !((s.core c).eng eng).boundaryHeld (s.env c) eng &&
    (((s.core c).eng eng).here.waited || (s.core c).coup.waitOk eng (waitOf w).1 (waitOf w).2) &&
    !((s.core c).advance (s.issueCycle c eng)).lowerFirst (s.env c) eng &&
    (s.issueCore c eng w).coup.sigLegal eng (bits w 52 51) (bits w 50 45)

theorem head_of (s : State) (c eng : Nat) (w : Word) (h : headOk s c eng w = true) : s.Head c eng w := by
  simp only [headOk, Bool.and_eq_true, decide_eq_true_eq, beq_iff_eq, Bool.not_eq_true', List.isEmpty_iff, Option.isNone_iff_eq_none] at h
  obtain ⟨⟨⟨⟨⟨⟨⟨⟨⟨⟨⟨h1, h2⟩, h3⟩, h4⟩, h5⟩, h6⟩, h7⟩, h8⟩, h9⟩, h10⟩, h11⟩, h12⟩ := h
  refine ⟨h1, h2, ?_, h4, h5, h6, h7, fun _ _ => h8, h9, h10, h11, h12⟩
  intro n p hn hp
  rw [hn] at h3
  simp only [hp] at h3
  simpa using h3

/-- No wait and no signal. -/
def plain : Ctl := ⟨false, 0, 0, 0, 0⟩


/-! ### Instruction words written out from the spec's examples (R75) -/

theorem test_word_copy : wordCopy ⟨true, 3, 4, 0, 0⟩ 4 7 true false true 1152 = 0x20F100043D00000480 := by decide
theorem test_word_mma : wordMma ⟨false, 0, 0, 1, 3⟩ 0 1 144 96 144 false false 3 = 0x42000860C830004818 := by decide
theorem test_word_mstream : wordMstream ⟨false, 0, 0, 2, 5⟩ 9 true 0 true 15 false true = 0x620010A98807A00000 := by decide
theorem test_word_vsub : wordVsub plain 0x080 0x000 0x040 true = 0x888000020000040001 := by decide
theorem test_word_msend : wordMsend ⟨false, 0, 0, 1, 2⟩ 6 3 true 63 0x2A = 0xA08008461C3F2A0000 := by decide
theorem test_word_movi : wordMovi plain 12 0xA402052400 = 0x0A00000CA402052400 := by decide
theorem test_word_movh : wordMovh plain 12 0x000FFFF1 = 0x0A80000C00000FFFF1 := by decide

/-- The decoding checks of the head accept the words of the examples, and refuse an undefined operation and a set reserved bit (R76). -/
theorem test_head_check : (headCheck .reset 2 0x42000860C830004818).isNone = true ∧
    headCheck .reset 0 (insWord 0 0x0D plain 0) = some .illegalOpcode ∧ headCheck .reset 0 (wordAdd plain 1 2 3 ||| 1) = some .illegalEncoding := by
  decide

/-! ### Witnesses: the instructions of the engines -/

/-- A register value of the SE. -/
def withSreg (k : Core) (r : Nat) (v : Word) : Core := { k with sregs := k.sregs.put r ⟨v, false⟩ }

/-- A scratchpad with every bank on and the first 64 words written. -/
def scratch : Scratch :=
  { Scratch.reset with banksReq := 65535, banksOn := 65535, cells := ⟨(List.range 64).map fun q => (q, ⟨BitVec.ofNat 72 (q + 1), false, true⟩)⟩ }

/-- A core with memory: address register 1 holds the address of its own scratchpad and register s1 an offset in it, address register 2 an address of near memory, and handles 0 and 1
name 1,024 nt in two banks of the scratchpad. -/
def furnished (eng : Nat) (ws : List Word) : Core :=
  let k := coreOf eng ws
  { k with
    scr := scratch, sregs := SMap.empty.put 1 ⟨16, false⟩
    te := { k.te with areg := ⟨[(1, 0xFFFF00000000000), (2, 0xFFFF04000000000), (3, 0xFFFF00000000100), (4, 0xFFFF10000000000)]⟩, regs := ⟨[(0, ⟨0, 0, 0, 0⟩)]⟩ }
    handles := ⟨[(0, ⟨true, false, 0, .n9, 0, 0, false, 0, 1024⟩), (1, ⟨true, false, 0, .n9, 0, 0x40000, false, 0, 1024⟩)]⟩ }

/-- The part whose furnished core 0 has `w` at the head of engine `eng`. -/
def full (eng : Nat) (w : Word) : State := part prog (furnished eng [w])

theorem witness_ScalarRegisterOps : (ready 0 (wordAdd plain 1 2 3)).Head 0 0 (wordAdd plain 1 2 3) ∧
    (ready 0 (wordSub plain 0 2 3)).Head 0 0 (wordSub plain 0 2 3) ∧
    (ready 0 (wordAnd plain 31 2 3)).Head 0 0 (wordAnd plain 31 2 3) ∧
    (ready 0 (wordOr plain 1 2 3)).Head 0 0 (wordOr plain 1 2 3) ∧
    (ready 0 (wordXor plain 1 2 3)).Head 0 0 (wordXor plain 1 2 3) ∧
    (ready 0 (wordShl plain 1 2 3)).Head 0 0 (wordShl plain 1 2 3) ∧
    (ready 0 (wordShr plain 1 2 3)).Head 0 0 (wordShr plain 1 2 3) ∧
    (ready 0 (wordSra plain 1 2 3)).Head 0 0 (wordSra plain 1 2 3) ∧
    (ready 0 (wordCmplt plain 1 2 3)).Head 0 0 (wordCmplt plain 1 2 3) ∧
    (ready 0 (wordCmpltu plain 1 2 3)).Head 0 0 (wordCmpltu plain 1 2 3) ∧
    (ready 0 (wordCmpeq plain 1 2 3)).Head 0 0 (wordCmpeq plain 1 2 3) :=
  ⟨head_of _ _ _ _ (by decide), head_of _ _ _ _ (by decide), head_of _ _ _ _ (by decide), head_of _ _ _ _ (by decide), head_of _ _ _ _ (by decide), head_of _ _ _ _ (by decide), head_of _ _ _ _ (by decide), head_of _ _ _ _ (by decide), head_of _ _ _ _ (by decide), head_of _ _ _ _ (by decide), head_of _ _ _ _ (by decide)⟩

theorem witness_ScalarImmediateOps : (ready 0 (wordAddi plain 1 2 3)).Head 0 0 (wordAddi plain 1 2 3) ∧
    (ready 0 (wordAndi plain 1 2 3)).Head 0 0 (wordAndi plain 1 2 3) ∧
    (ready 0 (wordShli plain 1 2 3)).Head 0 0 (wordShli plain 1 2 3) ∧
    (ready 0 (wordShri plain 1 2 127)).Head 0 0 (wordShri plain 1 2 127) ∧
    (ready 0 (wordMovi plain 1 (-1))).Head 0 0 (wordMovi plain 1 (-1)) ∧
    (ready 0 (wordMovh plain 0 7)).Head 0 0 (wordMovh plain 0 7) :=
  ⟨head_of _ _ _ _ (by decide), head_of _ _ _ _ (by decide), head_of _ _ _ _ (by decide), head_of _ _ _ _ (by decide), head_of _ _ _ _ (by decide), head_of _ _ _ _ (by decide)⟩

theorem witness_ScalarLoads : (ready 0 (wordMul plain 1 2 3)).Head 0 0 (wordMul plain 1 2 3) ∧
    (let w := wordLd plain 2 1 (-8)
     let s := full 0 w
     s.Head 0 0 w ∧ ((s.core 0).sreg 1).p = false ∧ seScratch (s.env 0) ((s.core 0).seAddr 1 (-8)) = some 8 ∧ (s.core 0).scr.wordsOn [1] = true ∧
       (s.core 0).scr.upset.entries = [] ∧ ((s.core 0).scr.cell 1).wr = true) ∧
    (let w := wordCwr plain 2 0 8
     let s := full 0 w
     s.Head 0 0 w ∧ ((s.core 0).sreg 0).p = false ∧ (s.core 0).seAddr 0 8 ≤ 0xFFF8 ∧ (s.core 0).seAddr 0 8 % 8 = 0) :=
  ⟨head_of _ _ _ _ (by decide), ⟨head_of _ _ _ _ (by decide), by decide⟩, head_of _ _ _ _ (by decide), by decide⟩

theorem witness_ScalarStores :
    (let w := wordSt plain 2 1 (-8)
     let s := full 0 w
     s.Head 0 0 w ∧ ((s.core 0).sreg 1).p = false ∧ seScratch (s.env 0) ((s.core 0).seAddr 1 (-8)) = some 8 ∧ (s.core 0).scr.wordsOn [1] = true ∧
       (s.core 0).wordProtected (s.env 0).step 1 = false) ∧
    (let w := wordCww plain 2 0 8
     let s := full 0 w
     s.Head 0 0 w ∧ ((s.core 0).sreg 0).p = false ∧ ((s.core 0).sreg 2).p = false ∧ (s.core 0).seAddr 0 8 = 8 ∧
       cwwRefused 8 ((s.core 0).sreg 2).v = false) :=
  ⟨⟨head_of _ _ _ _ (by decide), by decide⟩, head_of _ _ _ _ (by decide), by decide⟩

theorem witness_CommonInstructions : (ready 5 (wordNop 5 plain)).Head 0 5 (wordNop 5 plain) ∧ (ready 0 (wordStep plain)).Head 0 0 (wordStep plain) ∧
    (let w := wordHalt 2 plain
     let s := ready 2 w
     s.Head 0 2 w ∧ ((s.core 0).eng 2).here.levels = [] ∧ ((s.core 0).eng 2).nctx = 1 ∧ ((s.core 0).eng 2).cur = 0) :=
  ⟨head_of _ _ _ _ (by decide), head_of _ _ _ _ (by decide), head_of _ _ _ _ (by decide), by decide⟩

theorem witness_LoopOpensOrSkips :
    (let w := wordLoop 0 plain 7 1
     let s := part prog (coreOf 0 [w, wordNop 0 plain])
     s.Head 0 0 w ∧ ((s.core 0).eng 0).badLoop ((s.core 0).eng 0).here 1 = false ∧ (s.core 0).loopCnt.get 0 7 = 0 ∧
       ((s.core 0).eng 0).here.levels = [] ∧ 1 < ((s.core 0).eng 0).here.queue.length) ∧
    (let w := wordLoop 0 plain 7 1
     let s := part prog { coreOf 0 [w] with loopCnt := SMap.empty.put 7 3 }
     s.Head 0 0 w ∧ ((s.core 0).eng 0).badLoop ((s.core 0).eng 0).here 1 = false ∧ 0 < (s.core 0).loopCnt.get 0 7) :=
  ⟨⟨head_of _ _ _ _ (by decide), by decide⟩, head_of _ _ _ _ (by decide), by decide⟩

theorem witness_ProgramErrorStops : (ready 0 0).prog 1 = some prog := by decide

/-- The conditions of `State.Works` hold. -/
theorem works_of (s : State) (c : Nat) (h : (decide (c < 144) && s.coreRuns c && (match (s.core c).prog with
      | some n => (match s.prog n with | some p => !p.stopping | none => true)
      | none => true) && ((s.core c).te.net.filter (s.goesOff (s.core c))).isEmpty) = true) : s.Works c := by
  simp only [Bool.and_eq_true, decide_eq_true_eq, List.isEmpty_iff] at h
  obtain ⟨⟨⟨h1, h2⟩, h3⟩, h4⟩ := h
  refine ⟨h1, h2, ?_, h4⟩
  intro n p hn hp
  rw [hn] at h3
  simp only [hp] at h3
  simpa using h3

theorem witness_HeadAndCompletionEvents :
    (let w := insWord 0 0x0D plain 0
     let s := ready 0 w
     let g := (s.core 0).eng 0
     s.Works 0 ∧ g.active = true ∧ g.here.head = some w ∧ (s.core 0).quietTo (s.env 0) (s.issueCycle 0 0) = true ∧
       ((s.core 0).advance (s.issueCycle 0 0)).lowerFirst (s.env 0) 0 = false ∧ g.here.held = none ∧ g.here.waited = false ∧
       headCheck (s.core 0).coup 0 w = some .illegalOpcode) ∧
    (let w := wordNop 5 ⟨false, 1, 3, 0, 0⟩
     let s := ready 5 w
     let g := (s.core 0).eng 5
     s.Works 0 ∧ g.active = true ∧ g.here.head = some w ∧ (s.core 0).quietTo (s.env 0) (s.issueCycle 0 5) = true ∧
       ((s.core 0).advance (s.issueCycle 0 5)).lowerFirst (s.env 0) 5 = false ∧ g.here.held = none ∧ g.here.waited = false ∧
       headCheck (s.core 0).coup 5 w = none ∧ g.boundaryHeld (s.env 0) 5 = false ∧ (s.core 0).coup.waitOk 5 (waitOf w).1 (waitOf w).2 = false) ∧
    (let i : Infl := ⟨0, 0, 0, 0, some 2, 1, 5, []⟩
     let s := part prog { coreOf 0 [] with infl := [i] }
     s.Works 0 ∧ (s.core 0).still ∧ (s.core 0).infl = [i] ∧ (s.core 0).now ≤ 2 ∧ (s.core 0).quietTo (s.env 0) 2 = true ∧
       ((s.core 0).advance 2).blocked (s.env 0) = false ∧ (s.core 0).coup.flag 5 = false) ∧
    (let cx : Ctx := { Ctx.reset with queue := [wordNop 0 ⟨false, 1, 3, 0, 0⟩], supplied := 1, total := 4, held := some 0 }
     let s := part prog { coreOf 0 [] with engs := SMap.empty.put 0 { Engine.reset with st := .waiting, ctxs := SMap.empty.put 0 cx } }
     s.Works 0 ∧ ((s.core 0).eng 0).holds = [(0, 0)] ∧ (s.core 0).quietTo (s.env 0) (0 + (s.env 0).waitTimeout) = true ∧ (s.core 0).stillHeld 0 0 = true) ∧
    (let s := { part prog { coreOf 0 [] with st := { CoreStatus.reset with stepSlip := 9 } } with dict := SMap.empty.put (odKey 0x4110 1 0) 8 }
     s.Works 0 ∧ (s.env 0).free = false ∧ (s.env 0).slipLimit = 8 ∧ (s.core 0).slipCycles = 9) :=
  ⟨⟨works_of _ _ (by decide), by decide⟩, ⟨works_of _ _ (by decide), by decide⟩, ⟨works_of _ _ (by decide), by unfold Core.still; decide⟩,
    ⟨works_of _ _ (by decide), by decide⟩, works_of _ _ (by decide), by decide⟩

/-! ### Witnesses: steps, invariants and time -/

theorem witness_StepIdles : State.reset.pending = [] ∧ State.reset.live = false ∧ (up.live = true ∧ up.progs.entries = [] ∧ up.pins.held &&& 8 = 0 ∧ up.slew = 0) ∧ ({ State.reset with pins := { Pins.reset with held := 1 } } : State).pins.held &&& 8 = 0 := by
  decide

theorem witness_WellFormedGoesOn : wellFormed (.windowDrainTimeout 1023) = true ∧ wellFormed (.registerWrite (.control 143 0xFFFF) 7) = true := by decide

theorem witness_WellFormedGoesOn_fault : exec (.ackTimeout 12) .reset = .fault .noSuchPort := by rfl

theorem witness_FlagsAndCounters : Core.reset.coup.cnt.get 0 15 < 2 ^ 36 - 1 ∧
    { Core.reset with coup := { Coupling.reset with cnt := SMap.empty.put 15 68719476735 } }.coup.cnt.get 0 15 = 2 ^ 36 - 1 := by decide

theorem witness_ExecLeavesQueue : ∃ t, exec (.alertAck 3) { State.reset with pending := [.yarrowBoot true] } = .next t := ⟨_, rfl⟩

theorem witness_OnePrimary : ∃ t, up.tokenOk = true ∧ step { up with pending := [.alertAck 3] } = .next t := ⟨_, by decide, rfl⟩

theorem witness_FusesAdvance : ∃ t, step { State.reset with pending := [.chainIn true] } = .next t := ⟨_, rfl⟩

theorem witness_MemoryStaysCanonical : ∃ t, up.memOk = true ∧ step { up with pending := [.chainIn true] } = .next t := ⟨_, by decide, rfl⟩

/-! ### Witnesses: memory, transfers and products -/

theorem witness_MemoryReadsBack : Mem.empty.mirrorOf nearBase = none ∧ Mem.empty.mirrorOf farBase = none := by decide

theorem witness_TransferTiming :
    (let w := wordCopy plain 3 1 false true true 130
     let s := full 1 w
     s.Head 0 1 w ∧ (s.opHere 0 1 w fun env => opCopy env 3 1 false true true 130).errs = [] ∧
       copyEnd (s.env 0) s.mem ((s.core 0).areg 1) 130 = .scratch 0 ∧ copyEnd (s.env 0) s.mem ((s.core 0).areg 3) 130 = .scratch 256) ∧
    (let w := wordCopy plain 3 2 false false false 97
     let s := full 1 w
     s.Head 0 1 w ∧ (s.opHere 0 1 w fun env => opCopy env 3 2 false false false 97).errs = [] ∧
       copyEnd (s.env 0) s.mem ((s.core 0).areg 2) 97 = .near nearBase) ∧
    (let w := wordCopy plain 2 1 false false false 128
     let s := full 1 w
     s.Head 0 1 w ∧ (s.opHere 0 1 w fun env => opCopy env 2 1 false false false 128).errs = []) ∧
    (let w := wordQland plain 3 7 false false
     let s := part prog { furnished 1 [w] with te := { (furnished 1 [w]).te with dq := SMap.empty.put 7 { DQueue.reset with st := 2, size := 16 } } }
     s.Head 0 1 w ∧ (s.opHere 0 1 w fun env => opQland env 3 7 false false).errs = []) :=
  ⟨⟨head_of _ _ _ _ (by decide), by decide⟩, ⟨head_of _ _ _ _ (by decide), by decide⟩, ⟨head_of _ _ _ _ (by decide), by decide⟩,
    head_of _ _ _ _ (by decide), by decide⟩

theorem witness_TransferRequests :
    (let w := wordLoadq plain 4 0 false 1024
     let s := full 1 w
     s.Head 0 1 w ∧ (s.opHere 0 1 w fun env => opLoadq env 4 0 false 1024).errs = []) ∧
    (let w := wordStore plain 4 1 false false 64
     let s := full 1 w
     s.Head 0 1 w ∧ (s.opHere 0 1 w fun env => opStore env 4 1 false false 64).errs = []) ∧
    (let w := wordMcast plain 3 1 0 8
     let s := full 1 w
     s.Head 0 1 w ∧ (s.opHere 0 1 w fun env => opMcast env 3 1 0 8).errs = []) ∧
    (let w := wordLight plain 1 143 63
     let s := full 1 w
     s.Head 0 1 w ∧ (s.opHere 0 1 w fun env => opLight env 1 143 63).errs = []) :=
  ⟨⟨head_of _ _ _ _ (by decide), by decide⟩, ⟨head_of _ _ _ _ (by decide), by decide⟩, ⟨head_of _ _ _ _ (by decide), by decide⟩,
    head_of _ _ _ _ (by decide), by decide⟩

theorem witness_ClearShadow : (ready 2 (wordOclr plain)).Head 0 2 (wordOclr plain) ∧
    ((ready 2 (wordOclr plain)).core 0).pipeBusy ((ready 2 (wordOclr plain)).issueCycle 0 2) = false :=
  ⟨head_of _ _ _ _ (by decide), by decide⟩

theorem witness_DescriptorsAndSwap :
    (ready 2 (wordOset plain 7 63 true false true 65535)).Head 0 2 (wordOset plain 7 63 true false true 65535) ∧
    (let w := wordSwap plain true true false
     let s := ready 2 w
     s.Head 0 2 w ∧ (s.core 0).pipeBusy (s.issueCycle 0 2) = false ∧ (s.core 0).insidePair (s.issueCycle 0 2) = false) :=
  ⟨head_of _ _ _ _ (by decide), head_of _ _ _ _ (by decide), by decide⟩

/-- A part like `full` whose OPE reads handles 0 and 1 through descriptors 0 and 1. -/
def fullOpe (w : Word) : State :=
  part prog { furnished 2 [w] with ope := { Ope.reset with descs := ⟨[(0, ⟨0, false, false, false, 0⟩), (1, ⟨1, false, false, false, 0⟩)]⟩ } }

theorem witness_StreamTiming :
    (let w := wordMma plain 0 1 2 2 3 false false 1
     let s := fullOpe w
     s.Head 0 2 w ∧ (s.opHere 0 2 w fun _ => opMma 0 1 2 2 3 false false 1).errs = []) ∧
    (let w := wordMma plain 0 1 1 144 1 true false 2
     let s := fullOpe w
     s.Head 0 2 w ∧ (s.opHere 0 2 w fun _ => opMma 0 1 1 144 1 true false 2).errs = []) ∧
    (let w := wordMmaq plain 1 2 2 3 false false 1
     let s := fullOpe w
     s.Head 0 2 w ∧ (s.opHere 0 2 w fun _ => opMmaq 1 2 2 3 false false 1).errs = []) :=
  ⟨⟨head_of _ _ _ _ (by decide), by decide⟩, ⟨head_of _ _ _ _ (by decide), by decide⟩, head_of _ _ _ _ (by decide), by decide⟩

/-- Eight drained rows. -/
def manyRows : List (List Acc) := [[], [], [], [], [], [], [], []]

theorem witness_MaskPreloadDrain :
    (let w := wordOmask plain 0 0
     let s := full 2 w
     s.Head 0 2 w ∧ (s.opHere 0 2 w fun _ => opOmask 0 0).errs = []) ∧
    (let w := wordPreload plain 0 0 1
     let s := full 2 w
     s.Head 0 2 w ∧ (s.opHere 0 2 w fun _ => opPreload 0 0 1).errs = []) ∧
    (let s := part prog { coreOf 2 [] with ope := { Ope.reset with drain := some ⟨5, false, [], 0, 0, 0⟩ } }
     s.Works 0 ∧ (s.core 0).now ≤ 5 ∧ (s.core 0).quietTo (s.env 0) 5 = true ∧ ((s.core 0).advance 5).stands (s.env 0) = false ∧ (s.core 0).pend = [] ∧
       (s.core 0).infl = [] ∧ (s.core 0).ope.tqFill < 4) ∧
    (let s := part prog { coreOf 2 [] with ope := { Ope.reset with drain := some ⟨5, true, manyRows, 2, 0, 0⟩, tqFill := 4 } }
     s.Works 0 ∧ manyRows.length = 8 ∧ (s.core 0).quietTo (s.env 0) 13 = true ∧ ((s.core 0).advance 13).stands (s.env 0) = false) :=
  ⟨⟨head_of _ _ _ _ (by decide), by decide⟩, ⟨head_of _ _ _ _ (by decide), by decide⟩, ⟨works_of _ _ (by decide), by decide⟩, works_of _ _ (by decide), by decide⟩

theorem witness_StreamConfiguration :
    (ready 3 (wordMcfg plain 2 (-256) 127 4095)).Head 0 3 (wordMcfg plain 2 (-256) 127 4095) := head_of _ _ _ _ (by decide)

/-! ### Witnesses: vectors -/

/-- A stream of the MVE with one group still to add, or none, and an emission. -/
def mvStream (next : Nat) : MStream := ⟨MCfg.reset, nearBase, 1, [0], false, true, next, 0, 0, 1, [], 0, 0⟩

theorem witness_MatrixVectorTiming :
    (let w := wordHload plain 7 0 0 143 0
     let s := full 3 w
     s.Head 0 3 w ∧ (s.opHere 0 3 w fun _ => opHload 7 0 0 144 0).errs = []) ∧
    (let w := wordMstream plain 2 true 0 true 15 false true
     let s := full 3 w
     s.Head 0 3 w ∧ (s.opHere 0 3 w fun env => opMstream env 2 true 0 true 16 false true).errs = []) ∧
    (let w := wordMpop plain 0 0 127 false
     let s := part prog { furnished 3 [w] with mve := { Mve.reset with rqFill := 1 } }
     s.Head 0 3 w ∧ (s.opHere 0 3 w fun env => opMpop env 0 0 96 false).errs = []) ∧
    (let s := part prog { coreOf 3 [] with mve := { Mve.reset with streams := [mvStream 0] } }
     s.Works 0 ∧ (mvStream 0).addDue = some 100 ∧ (s.core 0).quietTo (s.env 0) 100 = true ∧ ((s.core 0).advance 100).stands (s.env 0) = false ∧
       (s.core 0).pend = [] ∧ (s.core 0).infl = []) ∧
    (let s := part prog { coreOf 3 [] with mve := { Mve.reset with streams := [mvStream 1] } }
     s.Works 0 ∧ (mvStream 1).next = (mvStream 1).groups ∧ (mvStream 1).emit = true ∧ (mvStream 1).asked = (mvStream 1).requests ∧
       (mvStream 1).vecs.Nodup ∧ (s.core 0).quietTo (s.env 0) (mvStream 1).emitCycle = true ∧ ((s.core 0).advance (mvStream 1).emitCycle).stands (s.env 0) = false ∧
       (s.core 0).mve.rqFill + (mvStream 1).vecs.length ≤ 8) :=
  ⟨⟨head_of _ _ _ _ (by decide), by decide⟩, ⟨head_of _ _ _ _ (by decide), by decide⟩, ⟨head_of _ _ _ _ (by decide), by decide⟩,
    ⟨works_of _ _ (by decide), by decide⟩, works_of _ _ (by decide), by decide⟩

theorem witness_VectorElementTiming :
    let v (w : Word) := (ready 4 w).Head 0 4 w
    v (wordVadd plain 1 2 3 true) ∧ v (wordVsub plain 0x080 0x000 0x040 true) ∧ v (wordVmul plain 1 2 3 false) ∧ v (wordVmax plain 1 2 3 false) ∧
      v (wordVmin plain 1 2 3 false) ∧ v (wordVfma plain 1 2 3 4 false) ∧ v (wordVcmp plain 1 2 3 2 false) ∧ v (wordVsel plain 1 2 3 4 false) ∧
      v (wordVmov plain 1 2 3 true) ∧ v (wordVtab plain 1 2 0 false) :=
  ⟨head_of _ _ _ _ (by decide), head_of _ _ _ _ (by decide), head_of _ _ _ _ (by decide), head_of _ _ _ _ (by decide), head_of _ _ _ _ (by decide),
    head_of _ _ _ _ (by decide), head_of _ _ _ _ (by decide), head_of _ _ _ _ (by decide), head_of _ _ _ _ (by decide), head_of _ _ _ _ (by decide)⟩

theorem witness_VectorSlotTiming :
    let v (w : Word) := (ready 4 w).Head 0 4 w
    v (wordVcvt plain 1 2 1 (-5) true 3) ∧ v (wordSupd plain 1 2 3 (-256) true) ∧ v (wordVred plain 1 2 0) ∧ v (wordVcmpr plain 1 2 3) ∧
      v (wordVexpd plain 1 2 3 true) ∧ v (wordVstat plain 1 15) :=
  ⟨head_of _ _ _ _ (by decide), head_of _ _ _ _ (by decide), head_of _ _ _ _ (by decide), head_of _ _ _ _ (by decide), head_of _ _ _ _ (by decide),
    head_of _ _ _ _ (by decide)⟩

/-- A part like `full` whose VE works on 144 elements of N9. -/
def fullVe (w : Word) : State :=
  part prog { furnished 4 [w] with ve := { Ve.reset with cfg := ⟨.n9, false, false, 0, 144, 1, false⟩ } }

theorem witness_VectorMoveTiming :
    (let w := wordVld plain 0 0 true
     let s := fullVe w
     s.Head 0 4 w ∧ (s.opHere 0 4 w fun _ => opVld 0 0 true).errs = []) ∧
    (let w := wordVst plain 0 0 false true 3
     let s := fullVe w
     s.Head 0 4 w ∧ (s.opHere 0 4 w fun _ => opVst 0 0 false true 3).errs = []) ∧
    (fullVe (wordTqrd plain 0 0 0 0 true)).Head 0 4 (wordTqrd plain 0 0 0 0 true) ∧
    (fullVe (wordRqrd plain 0 7 true)).Head 0 4 (wordRqrd plain 0 7 true) ∧
    (fullVe (wordTbw plain 0 true 143 0 2 3 true true 15)).Head 0 4 (wordTbw plain 0 true 143 0 2 3 true true 15) ∧
    (let w := wordFsel plain 0 0 0
     let s := part prog { furnished 4 [w] with train := { Train.reset with binds := SMap.empty.put 0 ⟨true, 0⟩, groups := SMap.empty.put 0 { Group.reset with valid := true } } }
     s.Head 0 4 w ∧ (s.opHere 0 4 w fun env => opFsel env 0 0 0).errs = []) :=
  ⟨⟨head_of _ _ _ _ (by decide), by decide⟩, ⟨head_of _ _ _ _ (by decide), by decide⟩, head_of _ _ _ _ (by decide), head_of _ _ _ _ (by decide),
    head_of _ _ _ _ (by decide), head_of _ _ _ _ (by decide), by decide⟩

theorem witness_VectorConfiguration :
    (let w := wordVcfg plain 1 true true 5 0 true 4095
     let s := ready 4 w
     s.Head 0 4 w ∧ (s.core 0).ve.vcntP = false) ∧
    (ready 4 (wordVptr plain 7 63 true 0x7FFFFF)).Head 0 4 (wordVptr plain 7 63 true 0x7FFFFF) ∧
    (ready 4 (wordSclr plain 15 (-256))).Head 0 4 (wordSclr plain 15 (-256)) :=
  ⟨⟨head_of _ _ _ _ (by decide), by decide⟩, head_of _ _ _ _ (by decide), head_of _ _ _ _ (by decide)⟩

/-! ### Witnesses: messages -/

/-- Channel end 31 of core 0 is `e`. -/
def withEnd (k : Core) (e : MEnd) : Core := { k with me := { Me.reset with ends := SMap.empty.put 31 e } }

theorem witness_MessageOperations :
    (let w := wordMsend plain 31 1 true 63 0x2A
     let s := part prog (withEnd (furnished 5 [w]) { MEnd.reset with role := 1, cap := 64, credit := 64 })
     s.Head 0 5 w ∧ (s.core 0).me.bkind = 0 ∧ (s.core 0).sendErrs (s.env 0) 1 31 1 63 = []) ∧
    (let w := wordMcomb plain 31 1 false 1
     let s := part prog (withEnd (furnished 5 [w]) { MEnd.reset with role := 3, credit := 1 })
     s.Head 0 5 w ∧ (s.core 0).me.bkind = 0 ∧ (s.core 0).sendErrs (s.env 0) 3 31 1 1 = []) ∧
    (let w := wordMrel plain 31
     let s := part prog (withEnd (coreOf 5 [w]) { MEnd.reset with role := 2, cap := 8, recs := [⟨0, 3, false, 0x2A, 7, 2, false⟩] })
     s.Head 0 5 w ∧ (s.core 0).me.bkind = 0 ∧ ((s.core 0).me.endOf 31).headMsg = some ⟨0, 3, false, 0x2A, 7, 2, false⟩) ∧
    (let w := wordMrecv plain 0x80000000 true true
     let s := part prog (withEnd (coreOf 5 [w]) { MEnd.reset with role := 2, cap := 8 })
     s.Head 0 5 w ∧ (s.core 0).me.bkind = 0 ∧ ∀ n ∈ setBitsOf 32 0x80000000, ((s.core 0).me.endOf n).role = 2) ∧
    (let w := wordMctake plain 7 1 true
     let s := part prog { furnished 5 [w] with me := { Me.reset with comb := SMap.empty.put 7 { CombQ.reset with valid := true, complete := true } } }
     s.Head 0 5 w ∧ (s.core 0).me.bkind = 0 ∧ (s.opHere 0 5 w fun env => opMctake env 7 1 true).errs = []) :=
  ⟨⟨head_of _ _ _ _ (by decide), by decide⟩, ⟨head_of _ _ _ _ (by decide), by decide⟩, ⟨head_of _ _ _ _ (by decide), by decide⟩,
    ⟨head_of _ _ _ _ (by decide), by decide⟩, head_of _ _ _ _ (by decide), by decide⟩

/-! ### Witnesses: transfers, messages and what lands -/

/-- Core 0 with this TE. -/
def teCore (te : Te) : Core := { furnished 1 [] with te := te }

/-- A STORE of 64 nonets of core 0 to far memory. -/
def farSend : Send := ⟨0, 1, 0, 0, .store 0xFFFF10000000000, 0, 64, [], 64, some 1, [], 0, 0⟩

theorem witness_TransferEvents :
    (let s := part prog (teCore { Te.reset with sends := [farSend] })
     let k := s.core 0
     s.Works 0 ∧ k.sendDue (s.env 0) = some 0 ∧ k.quietTo (s.env 0) (max 0 k.now) = true ∧ (k.advance (max 0 k.now)).hasRoom farSend = true ∧ 0 < farSend.size) ∧
    (let s := part prog (teCore { Te.reset with sends := [farSend], fill := 16384 })
     let k := s.core 0
     s.Works 0 ∧ k.sendDue (s.env 0) = some 0 ∧ k.prog = some 1 ∧ k.quietTo (s.env 0) (max 0 k.now) = true ∧
       (k.advance (max 0 k.now)).hasRoom farSend = false) ∧
    (let d := { farSend with cls := none, size := 8, gone := 7, data := wordNts 1 false }
     let s := part prog (teCore { Te.reset with outb := [d], fill := 1 })
     s.Works 0 ∧ d.gone < d.total ∧ d.data.length = d.total ∧ d.total - d.gone ≤ 1 ∧ (∀ m o, d.kind ≠ .mcast m o) ∧ s.goesOff (s.core 0) d = false) ∧
    (let q : DQueue := { DQueue.reset with st := 1, size := 100, src := 0xFFFF10000000000, tid := 9 }
     let s := part prog (teCore { Te.reset with dq := SMap.empty.put 15 q })
     s.Works 0 ∧ (s.core 0).te.tokenWait 0 = some 0 ∧ ((s.core 0).te.outb.any fun d => d.tid == 9) = false ∧ ∃ n, (s.core 0).te.nextReq 0 = some (9, n)) ∧
    (let q : DQueue := { DQueue.reset with st := 1, size := 100, src := 0xFFFF10000000000, sent := 2, landed := [0] }
     let s := part prog (teCore { Te.reset with dq := SMap.empty.put 15 q })
     s.Works 0 ∧ 1 < q.sent ∧ 1 ∉ q.landed ∧ 1 ∉ q.refused ∧ s.isHere (chipOf (q.src + 64)) = true ∧ farBase ≤ localOf (q.src + 64) ∧
       localOf (q.src + 64) + 36 ≤ farEnd ∧ s.mem.touchesMirror (localOf (q.src + 64)) 36 = false) :=
  ⟨⟨works_of _ _ (by decide), by decide⟩, ⟨works_of _ _ (by decide), by decide⟩,
    ⟨works_of _ _ (by decide), by decide, by decide, by decide, fun _ _ h => SendKind.noConfusion h, by decide⟩,
    ⟨works_of _ _ (by decide), by decide, by decide, _, rfl⟩, works_of _ _ (by decide), by decide⟩

/-- What `Obligations.Landings` asks of a background write: it lies in the scratchpad, its banks take it, and no step's handle protects it. -/
def bgOk (u : State) (n off len : Nat) (since : Option Nat) : Bool :=
  decide (off + len ≤ scratchSize) && (u.core n).scr.bgTakes since (wordsOf off len) &&
    !(u.stepRuns n && (u.core n).rangeProtected (u.env n).step off len)

theorem witness_Landings :
    (let d := { farSend with data := [⟨1, false⟩] }
     let s := part prog (teCore { Te.reset with net := [d] })
     s.live = true ∧ ((s.core 0).te.net.find? fun x => x.tid == 0) = some d ∧ s.isHere (chipOf 0xFFFF10000000000) = true ∧
       region s.fuse.absent (localOf 0xFFFF10000000000) = .far ∧ localOf 0xFFFF10000000000 + 1 ≤ farEnd ∧
       s.sealed (localOf 0xFFFF10000000000) 1 = false ∧ s.mem.touchesMirror (localOf 0xFFFF10000000000) 1 = false) ∧
    (let s : State := { up with
       dict := ⟨[(odKey 0x1010 1 0, 0), (odKey 0x1010 2 0, 6), (odKey 0x1010 8 0, 2)]⟩, jports := ⟨[(10, { JPort.reset with st := 3 }), (11, { JPort.reset with st := 3 })]⟩ }
     s.isHere (chipOf 0x000110000000000) = false ∧ s.reachesStill (chipOf 0x000110000000000) = true) ∧
    (let d := { farSend with kind := .mcast 0 512, data := [⟨1, false⟩], dests := [143] }
     let s : State := { up with
       progs := SMap.empty.put 1 prog
       cores := ⟨[(0, teCore { Te.reset with net := [d], msets := SMap.empty.put 0 [(143, 15)] }), (143, { Core.reset with scr := scratch })]⟩ }
     s.live = true ∧ ((s.core 0).te.net.find? fun x => x.tid == 0) = some d ∧ (((s.core 0).te.msets.get [] 0).find? fun m => m.1 == 143) = some (143, 15) ∧
       bgOk (s.bgWait 143) 143 512 1 (some (s.cycleOf 0 d.start)) = true) ∧
    (let d := { farSend with kind := .light 143, size := 1, data := [⟨1, false⟩] }
     let s := part prog (teCore { Te.reset with lightq := [d] })
     s.Works 0 ∧ s.live = true ∧ prog.starting = false ∧ d.data.length = d.size ∧
       (let from_ := max (s.core 0).now (d.start + 1)
        let f := (s.coreFrame 0 + (from_ - (s.core 0).now)) % 144
        (s.core 0).quietTo (s.env 0) (from_ + (0 + 144 - f) % 144) = true)) ∧
    (let f : LightFlight := ⟨5, 0, 0, [⟨1, false⟩]⟩
     let s (v : Bool) : State := { up with light := [f], cores := SMap.empty.put 0 { Core.reset with scr := scratch, te := { Te.reset with lightValid := v } } }
     ((s true).light.find? fun x => x.src == 5 && x.dst == 0) = some f ∧
       (((s false).bring 0 (f.at_ + 4 + (0 + 144 - 5) % 144)).core 0).te.lightValid = false ∧
       (let s1 := (s true).bring 0 (f.at_ + 4 + (0 + 144 - 5) % 144)
        (s1.core 0).te.lightValid = true ∧
          bgOk (({ s1 with light := s1.light.erase f } : State).bgWait 0) 0 ((s1.core 0).te.lightBase + 64 * 5) 1 (some f.at_) = true)) ∧
    (let s : State := { up with cores := SMap.empty.put 0 { Core.reset with scr := scratch } }
     bgOk (s.bgWait 0) 0 511 144 none = true ∧ 511 + 144 ≤ scratchSize) ∧
    (let s := part prog (teCore { Te.reset with credits := SMap.empty.put 15 ⟨0xFFFF, 1, true, false, 0, 67108863⟩ })
     s.live = true ∧ bits (67108863 : Word) 71 26 = 0 ∧ ((s.core 0).te.credits.get .reset 15).valid = true) :=
  ⟨by decide, by decide, by decide, ⟨works_of _ _ (by decide), by decide⟩, by decide, by decide, by decide⟩

theorem witness_MessageEvents :
    (let s := part prog (withEnd (furnished 5 []) { MEnd.reset with role := 2, cls := 3, cap := 8, pchip := 1 })
     let ext := wordNts (msgHeader 0x2A 7 0) false
     let u := s.landSlots 0 31 (((s.core 0).me.endOf 31).nextPos) ext
     s.Works 0 ∧ s.isHere 1 = false ∧ ext.length = 8 ∧ u.live = true ∧ ((u.core 0).me.endOf 31).cls = 3 ∧
       (u.core 0).writeRefused (u.env 0).step (((u.core 0).handle ((u.core 0).me.endOf 31).handle).base + 8 * ((s.core 0).me.endOf 31).nextPos)
         (if bits (BitVec.ofNat 72 (ntVal (ext.take 8))) 71 70 = 1 then 8 else ext.length) = none) ∧
    (let hdr := wordNts (msgHeader 0x2A 7 0) false
     let d : Send := ⟨3, 5, 0, 0, .msg 30 0x2A 0 7 0, 0, 0, hdr, 8, none, [], 0, 0⟩
     let e : MEnd := { MEnd.reset with role := 2, cls := 1, cap := 8, pchip := 0xFFFF, pcore := 0, pend := 30, dly := 2 }
     let k := furnished 5 []
     let s := part prog { k with
       me := { Me.reset with ends := ⟨[(30, { MEnd.reset with role := 1, cls := 1, cap := 8, pchip := 0xFFFF, pcore := 0, pend := 31 }), (31, e)]⟩ }
       te := { k.te with net := [d] } }
     s.Works 0 ∧ s.isHere e.pchip = true ∧ s.inChannel e = some d ∧
       (let u := (s.work e.pcore fun env x => x.runTo env (d.start + 11 + e.dly)).work 0 fun env x => x.runTo env (d.start + 11 + e.dly)
        u.inChannel e = some d ∧ u.coreRuns 0 = true ∧ d.data.length = d.total ∧
          (let v := u.beginLanding e.pcore d
           v.live = true ∧ ((v.core 0).me.endOf 31).cls ≠ 3 ∧
             (v.core 0).writeRefused (v.env 0).step (((v.core 0).handle ((v.core 0).me.endOf 31).handle).base + 8 * d.kind.pos) 8 = none))) ∧
    (let s := part prog (withEnd (coreOf 5 []) { MEnd.reset with role := 2, cap := 8, recs := [⟨6, 2, true, 0, 0, 1, false⟩] })
     s.Works 0 ∧ (s.core 0).quietTo (s.env 0) ((s.core 0).now + 1) = true) ∧
    (let s := part prog (withEnd (coreOf 5 []) { MEnd.reset with role := 1, cls := 3, cap := 8, pchip := 1 })
     s.Works 0 ∧ s.isHere 1 = false) ∧
    (let s := part prog (withEnd (coreOf 5 []) { MEnd.reset with role := 1, cls := 1, cap := 8, ret := [(3, 20)] })
     s.Works 0 ∧ (s.core 0).quietTo (s.env 0) (20 + 1) = true) ∧
    (let s := part prog { coreOf 5 [] with me := { Me.reset with comb := SMap.empty.put 7 { CombQ.reset with valid := true } } }
     s.Works 0 ∧ s.inComb 0 7 63 = none ∧ (List.replicate 8 (⟨0, false⟩ : PNt)).length = 8 * (((s.core 0).me.comb.get .reset 7).size + 1)) ∧
    (let x : Contrib := ⟨7, 0, 0, List.replicate 8 ⟨0, false⟩⟩
     let s := part prog { coreOf 5 [] with me := { Me.reset with comb := SMap.empty.put 7 { CombQ.reset with valid := true }, staging := [x] } }
     s.Works 0 ∧ (s.core 0).me.nextContrib (s.env 0).free = some x ∧ (s.core 0).now ≤ 0 ∧ (s.core 0).quietTo (s.env 0) 0 = true ∧
       ((s.core 0).advance 0).stands (s.env 0) = false ∧ (s.core 0).pend = [] ∧ (s.core 0).infl = []) ∧
    (let s := part prog { coreOf 5 [] with me := { Me.reset with bkind := 1, waits := [(1, 2)] } }
     s.Works 0 ∧ (s.core 0).me.bkind ≠ 0 ∧ ((s.bring 0 (s.cyc + (0 + 144 - s.frame) % 144)).core 0).me.bkind ≠ 0) ∧
    (let cx0 : Ctx := { Ctx.reset with queue := [wordNop 0 ⟨false, 1, 3, 0, 0⟩], supplied := 1, total := 4, held := some 0 }
     let cx1 : Ctx := { Ctx.reset with queue := [wordNop 0 plain], supplied := 1, total := 4 }
     let k := { coreOf 0 [] with engs := SMap.empty.put 0 { Engine.reset with st := .waiting, nctx := 2, ctxs := ⟨[(0, cx0), (1, cx1)]⟩ } }
     let s := part { prog with lat := { up.latch with free := true } } k
     s.Works 0 ∧ (s.env 0).free = true ∧ (s.core 0).stillHeld 0 0 = true ∧ (s.core 0).quietTo (s.env 0) (0 + (s.env 0).switchAfter) = true ∧
       (s.core 0).ctxReady (s.env 0) 0 1 = true) :=
  ⟨⟨works_of _ _ (by decide), by decide⟩, ⟨works_of _ _ (by decide), by decide⟩, ⟨works_of _ _ (by decide), by decide⟩,
    ⟨works_of _ _ (by decide), by decide⟩, ⟨works_of _ _ (by decide), by decide⟩, ⟨works_of _ _ (by decide), by decide⟩,
    ⟨works_of _ _ (by decide), by decide⟩, ⟨works_of _ _ (by decide), by decide⟩, works_of _ _ (by decide), by decide⟩

/-! ### Witnesses: host queues, programs and sessions -/

/-- A part in operation that holds program 1 and whose host queue 4095 has one entry of eight words, at the start of far memory. -/
def queued (p : Prog) (k : Core) (ws : List Word) : State :=
  { part p k with
    dict := ⟨[(odKey 0x1180 8 4095, farBase)]⟩, hports := SMap.empty.put 0 ⟨2, []⟩
    queues := SMap.empty.put 4095 { HQueue.reset with st := 1, tail := 1 }
    mem := Mem.empty.writeWords farBase ws }

/-- A part in operation whose host queue 4095 has the entry of operation `op` with these words. -/
def entryOf (op : Nat) (ws : List Word) : List Word := [BitVec.ofNat 72 (op * 2 ^ 64 + 7 * 2 ^ 32)] ++ ws

/-- The entry that the queue of `queued` begins. -/
def front (ws : List Word) : Entry := ⟨4095, 0, 7, ws⟩

/-- A program that is loaded and does not run. -/
def idleProg : Prog := { prog with running := false }

theorem witness_CompletionPosted :
    (let s := queued idleProg .reset (entryOf 0 [0, 0, 0, 0, 0, 0, 0])
     let u := s.beginEntry (front (entryOf 0 [0, 0, 0, 0, 0, 0, 0]))
     (u.queue 4095).active = [] ++ (0, 7) :: [] ∧ (u.queue 4095).waiting = [] ∧ u.ringRoom 4095 = true ∧ u.sends 4095 = true ∧
       { u with held := [(4095, 16, .ack 4095)] }.ringRoom 4095 = true ∧ { u with held := [(4095, 16, .ack 4095)] }.sends 4095 = false) ∧
    (let s : State := { up with queues := SMap.empty.put 0 { HQueue.reset with active := [(0, 7)], cprod := 1024 } }
     (s.queue 0).active = [] ++ (0, 7) :: [] ∧ s.ringRoom 0 = false ∧ s.backlog < 16384) ∧
    (let s : State := { up with queues := SMap.empty.put 0 { HQueue.reset with active := [(0, 7)], cprod := 1024, waiting := [⟨1, 0, 0, 0, 0, 0, 0⟩] } }
     ¬((s.queue 0).waiting = [] ∧ s.ringRoom 0 = true)) := by decide

/-- A part whose queue 0 has an entry in progress and these completions waiting. -/
def backed (l : List Compl) : State := { up with queues := SMap.empty.put 0 { HQueue.reset with active := [(0, 7)], waiting := l } }

theorem backed_holds (l : List Compl) : ((backed l).queue 0).active = [] ++ (0, 7) :: [] ∧ (backed l).ringRoom 0 = false ∧ (backed l).backlog = l.length :=
  ⟨rfl, rfl, Nat.zero_add _⟩

theorem witness_CompletionDropped :
    ∃ s : State, (s.queue 0).active = [] ++ (0, 7) :: [] ∧ s.ringRoom 0 = false ∧ 16384 ≤ s.backlog := by
  obtain ⟨a, b, c⟩ := backed_holds (List.replicate 16384 ⟨1, 0, 0, 0, 0, 0, 0⟩)
  exact ⟨_, a, b, Nat.le_of_eq (List.length_replicate.symm.trans c.symm)⟩

theorem witness_BadEntries :
    (let e := front (entryOf 8 [0, 0, 0, 0, 0, 0, 0])
     (queued idleProg .reset e.w).nextEntry 4095 = some e ∧ e.defined = false) ∧
    (∀ op ∈ [0, 1, 2, 3, 5], let e := front (entryOf op [0, 0, 0, 0, 0, 0, 1]);
      (queued idleProg .reset e.w).nextEntry 4095 = some e ∧ e.reserved = true ∧ e.op = op) ∧
    (let e := front (entryOf 4 [0, 0, 0, 0, 0, 0, 1])
     (queued idleProg .reset e.w).nextEntry 4095 = some e ∧ e.reserved = true ∧ e.op = 4 ∧ (queued idleProg .reset e.w).chunkWaits e = false) ∧
    (∀ cmd ∈ [1, 2, 3, 4, 5, 6, 7], let e := front (entryOf 6 [BitVec.ofNat 72 (cmd * 2 ^ 68), 0, 0, 0, 0, 0, 1]);
      (queued idleProg .reset e.w).nextEntry 4095 = some e ∧ e.reserved = true ∧ e.op = 6 ∧ e.cmd = cmd) ∧
    (∀ b ∈ [false, true], let e := front (entryOf 7 [BitVec.ofNat 72 (b2n b * 2 ^ 71), 0, 0, 0, 0, 0, 1]);
      (queued idleProg .reset e.w).nextEntry 4095 = some e ∧ e.reserved = true ∧ e.op = 7 ∧ bit (e.word 1) 71 = b) :=
  ⟨by decide, by decide, by decide, by decide, by decide⟩

/-- A program that the host feeds; its core 0 has room in the queue of the SE. -/
def fedProg : Prog := { prog with feeder := false }

/-- A core whose SE holds nothing and whose stream has four instructions. -/
def fedCore (n : Nat) : Core :=
  { Core.reset with
    prog := some 1, profile := 1
    engs := SMap.empty.put 0 { Engine.reset with st := .running, nctx := 8, ctxs := SMap.empty.put 0 { Ctx.reset with total := 4, queue := List.replicate n 0 } } }

set_option maxRecDepth 4000 in
theorem witness_ProgramEntries :
    (∀ op ∈ [0, 1, 2, 3, 4, 5], let e := front (entryOf op [0, 0, 0, 0, 0, 0, 0]);
      (queued idleProg .reset e.w).nextEntry 4095 = some e ∧ e.defined = true ∧ e.reserved = false ∧ (queued idleProg .reset e.w).entryPoisoned e = false ∧
        (queued idleProg .reset e.w).latentFault ((queued idleProg .reset e.w).entryAddr 4095 e.num) 64 = .none ∧
        e.op = op ∧ (queued idleProg .reset e.w).zeroed = true ∧ (queued idleProg .reset e.w).prog (bits (e.word 1) 15 0) = none ∧
        (queued idleProg .reset e.w).chunkOk e = none) ∧
    (∀ op ∈ [2, 3], let e := front (entryOf op [1, 0, 0, 0, 0, 0, 0]);
      (queued idleProg .reset e.w).nextEntry 4095 = some e ∧ e.defined = true ∧ e.reserved = false ∧ (queued idleProg .reset e.w).entryPoisoned e = false ∧
        (queued idleProg .reset e.w).latentFault ((queued idleProg .reset e.w).entryAddr 4095 e.num) 64 = .none ∧
        (queued idleProg .reset e.w).prog (bits (e.word 1) 15 0) = some idleProg) ∧
    (let e := front (entryOf 4 [0, 0x100000200, 4, 0, 0, 0, 0])
     (queued { fedProg with streams := [⟨0, 0, 0, 0x100000200, 8⟩] } (fedCore 128) e.w).nextEntry 4095 = some e ∧
       (queued fedProg (fedCore 128) e.w).chunkWaits e = true ∧ (queued fedProg (fedCore 0) e.w).chunkWaits e = false ∧
       (queued fedProg (fedCore 0) e.w).chunkOk e = some (1, ⟨0, 0, 0, 0x100000200, 4⟩)) ∧
    (let e := front (entryOf 5 [0xF000001, 0, 0, 0, 0, 0, 0])
     let f := front (entryOf 5 [0x8F0001, 0, 0, 0, 0, 0, 0])
     (queued idleProg .reset e.w).prog (bits (e.word 1) 15 0) = some idleProg ∧ bits (e.word 1) 23 16 ∈ idleProg.cores ∧
       bits (f.word 1) 15 0 = 1 ∧ bits (f.word 1) 23 16 ∉ idleProg.cores) :=
  ⟨by decide, by decide, by decide, by decide⟩

theorem witness_DescriptorReadsBack :
    let d : Sess := { Sess.ofWords [] with valid := true, prio := 7, gen := 65535, base := 63, adapter := 16383, kvAddr := nearBase, qp := 4095, samp7 := 5 }
    Sess.ofWords d.words = d ∧ Mem.empty.mirrorOf (sessAddr 1048575) = none ∧
      { Mem.empty with mirrors := [⟨tableBase, nearBase, 0x4000000, 1⟩] }.mirrorOf (sessAddr 1048575) = some ⟨tableBase, nearBase, 0x4000000, 1⟩ ∧
      nearBase + (sessAddr 1048575 - tableBase) + 64 ≤ tableBase := by decide

/-- A descriptor of session 1048575 of generation 3. -/
def sessOf (st : Nat) (kept : Bool) : Sess := { Sess.ofWords [] with valid := true, state := st, kept := kept, gen := 3, kvSize := 8 }

/-- The entry with session command `cmd` for session 1048575. -/
def cmdEntry (cmd : Nat) (keep host : Bool) (gen : Nat) : Entry :=
  front (entryOf 6 [BitVec.ofNat 72 (cmd * 2 ^ 68 + b2n keep * 2 ^ 67 + b2n host * 2 ^ 66 + gen * 2 ^ 48 + 1048575), 0, 0, 0, 0, 0, 0])

/-- A part whose queue 4095 holds this entry, with this descriptor of session 1048575. -/
def sessPart (e : Entry) (d : Sess) : State :=
  let s : State := { queued idleProg .reset e.w with progs := .empty }
  { s with mem := s.mem.writeWords (sessAddr 1048575) d.words }

theorem witness_SessionCommands :
    (∀ cmd ∈ [1, 2, 3, 4, 5, 6, 7],
      let e := cmdEntry cmd false false 3
      let s := sessPart e (sessOf 0 true)
      s.nextEntry 4095 = some e ∧ e.defined = true ∧ e.reserved = false ∧ s.entryPoisoned e = false ∧
        s.latentFault (s.entryAddr 4095 e.num) 64 = .none ∧ e.op = 6 ∧ e.cmd = cmd ∧ s.servingStep = false ∧
        (s.beginEntry e).isDraining e.scmd = false ∧ s.mem.poisoned (sessAddr e.scmd.number) = false ∧ e.scmd.number = 1048575 ∧ e.scmd.gen = 3) ∧
    ((sessPart (cmdEntry 3 false false 3) (sessOf 0 true)).beginEntry (cmdEntry 3 false false 3)).sess 1048575 = sessOf 0 true ∧
    (cmdEntry 2 false false 4).scmd.gen ≠ (sessOf 0 true).gen ∧
    (let b := (sessPart (cmdEntry 1 false false 3) (Sess.ofWords [])).beginEntry (cmdEntry 1 false false 3)
     (b.sess 1048575).valid = false ∧ b.noAdapter { Sess.ofWords [] with valid := true } = false ∧
       b.noAdapter { Sess.ofWords [] with valid := true, adptEn := true } = true) ∧
    (let s := sessPart (cmdEntry 3 false true 3) (sessOf 0 true)
     s.freePlace = some 0 ∧ (cmdEntry 3 false true 3).scmd.host = true ∧ s.readsOut 4095 < 16 ∧ s.sends 4095 = true ∧
       16 ≤ State.readsOut { s with moving := ⟨(List.range 16).map fun k => (k, (cmdEntry 3 false true 3).scmd)⟩ } 4095) ∧
    (cmdEntry 4 true false 3).scmd.keep = true ∧ (sessPart (cmdEntry 4 true false 3) (sessOf 1 false)).sess 1048575 = sessOf 1 false ∧
    (∀ cmd ∈ [2, 4, 5],
      let e := cmdEntry cmd false false 3
      let p := { prog with batch := some ⟨0, 4, [], 0, 0⟩, slotSess := [(1048575, 3)] }
      let s : State := { sessPart e (sessOf 2 false) with progs := SMap.empty.put 1 p }
      s.nextEntry 4095 = some e ∧ s.servingStep = true ∧ (s.beginEntry e).sess 1048575 = sessOf 2 false ∧ (s.beginEntry e).inStep 1048575 = true ∧
        s.moving.entries = [] ∧ s.draining.entries = [] ∧ s.cmds = []) :=
  ⟨by decide, by decide, by decide, by decide, by decide, by decide, by decide, by decide⟩

theorem witness_SessionEvents :
    (let c : SCmd := ⟨4095, 7, 3, false, true, 3, 1048575, 0, 0, 0, 0⟩
     let s : State := { up with moving := SMap.empty.put 1048575 c, mem := Mem.empty.writeWords (sessAddr 1048575) (sessOf 0 true).words }
     (s.moving.entries.find? fun e => e.1 == 1048575 && e.2.cmd == 3 && !(s.readWait.contains 1048575)) = some (1048575, c) ∧ (s.sess 1048575).failed = false ∧
       [(1 : Word)].length = (s.sess 1048575).kvSize / 8) ∧
    (let c : SCmd := ⟨4095, 7, 4, false, true, 3, 5, 0, 0, 0, 0⟩
     ((SMap.empty.put 5 c).entries.find? fun e => e.1 == 5 && e.2.cmd == 4) = some (5, c) ∧
       (State.draining { up with draining := SMap.empty.put 5 c }).entries.find? (fun e => e.1 == 5) = some (5, c) ∧ up.frozen = false ∧
       { up with frz := 2 }.frozen = true) ∧
    (let p := { prog with batch := some ⟨1, 4, [], 0, 0⟩, stalls := [.hold] }
     let s : State := { part p .reset with ready := SMap.empty.put 5 ⟨0, { sessOf 1 false with base := 1 }, none⟩ }
     s.prog 1 = some p ∧ s.live = true ∧ (s.applyCmds.countMisses ⟨1, 4, [], 0, 0⟩ s.tickNow).candidates ⟨1, 4, [], 0, 0⟩ s.tickNow ≠ []) :=
  ⟨by decide, by decide, by decide⟩

/-! ### Witnesses: programs, escalations and resets -/

theorem witness_ProgramEvents :
    (let s := part { prog with streams := [⟨0, 0, 0, 0x100000200, 200⟩] } { coreOf 0 [] with te := { Te.reset with regs := ⟨[(3, ⟨64, 1024, 65536, 0⟩)]⟩ } }
     s.live = true ∧ (s.feedable { prog with streams := [⟨0, 0, 0, 0x100000200, 200⟩] } 0 0).isSome = true ∧ 64 * 1024 ≤ ((s.core 0).te.reg 3).tokens64) ∧
    (let s := part prog (coreOf 0 [])
     let g := (s.core 0).eng 0
     s.coreRuns 0 = true ∧ g.active = true ∧ g.here.head = none ∧ g.here.ended = false ∧ g.here.supplied < g.here.total) ∧
    (let p := { prog with running := false, starting := true, stalls := [.startup] }
     let s := part p { coreOf 0 [] with engs := SMap.empty.put 0 { Engine.reset with st := .idle, ctxs := SMap.empty.put 0 { Ctx.reset with supplied := 4 } } }
     s.live = true ∧ s.filled p = true) ∧
    (let k := { Core.reset with prog := some 1, profile := 1, engs := SMap.empty.put 0 { Engine.reset with st := .running, boundary := true } }
     let u := (part prog k).settleProg 1
     (∃ q, u.prog 1 = some q ∧ q.multi = false ∧ u.commitReady q = true ∧ u.lastStepOf q = false) ∧ u.live = true ∧ u.replays 1 = false ∧ u.vet = none) ∧
    (let u := (part prog { Core.reset with prog := some 1, profile := 1 }).settleProg 1
     ∃ q, u.prog 1 = some q ∧ u.commitReady q = true ∧ u.lastStepOf q = true) ∧
    (let p := { prog with trigs := [.hang], stepErr := 2 }
     up.powered = true ∧ p.thirdFailure = true ∧ { p with stepErr := 1 }.thirdFailure = false ∧ up.frozen = false ∧ p.multi = false ∧ p.remounting = false) ∧
    (let p := { prog with stalls := [.link 11 3 7] }
     (part p .reset).live = true ∧ p.running = true ∧ p.remounting = false ∧ Stall.link 11 3 7 ∈ p.stalls) ∧
    (let s := part prog { coreOf 5 [] with engs := SMap.empty.put 5 { Engine.reset with st := .draining } }
     s.live = true ∧ ((s.core 0).eng 5).st = .draining) ∧
    (let s := part { prog with stalls := [.hold] } { coreOf 5 [] with engs := SMap.empty.put 5 { Engine.reset with st := .draining } }
     let u := s.bring 0 4000000
     s.live = true ∧ ((u.core 0).eng 5).st = .draining ∧ u.coreRuns 0 = false) ∧
    (let s := part prog { coreOf 0 [wordNop 0 plain] with engs := ((coreOf 0 [wordNop 0 plain]).engs).put 5 { Engine.reset with st := .draining }, infl := [⟨9, 5, 0, 0, none, 0, 0, []⟩] }
     let u := s.bring 0 4000000
     s.live = true ∧ ((u.core 0).eng 5).st = .draining ∧ u.coreRuns 0 = true ∧ u.coreCycle 0 < 4000000) ∧
    (let b : Beacon := ⟨0xFFFF * 256, [0xFFFF * 256]⟩
     let s := { part prog { coreOf 5 [] with now := 70000, me := { Me.reset with bkind := 1 } } with beacons := [b] }
     let here := ((s.deadSetOf 0).filter fun b => b.node / 256 == s.chipId).map fun b => b.node % 256
     let all := here.foldl (fun m c => max m (s.memberDue c)) 0
     let t1 := here.foldl (fun m c => min m (s.memberTimeout c)) all
     let s1 := here.foldl (fun s c => s.work c fun env x => x.runTo env t1) s
     let s2 := here.foldl (fun s c => s.bring c (s1.cyc + 144 - s1.frame)) s1
     s.coreRuns 0 = true ∧ b ∈ s.deadlocked ∧ b.node = s.meNode 0xFFFF 0 ∧ t1 ≤ (s1.core 0).now ∧
       (s2.deadlocked.any fun b => b.node == s.meNode 0xFFFF 0) = true ∧ (s2.core 0).prog = some 1) :=
  ⟨by decide, by decide, by decide, ⟨⟨_, rfl, by decide⟩, by decide⟩, ⟨_, rfl, by decide⟩, by decide, by decide, by decide, by decide, by decide, by decide⟩

/-- A program on two chips that starts on this one. -/
def wideProg : Prog := { prog with multi := true, members := [0xFFFF, 3], running := false, starting := true }

theorem witness_SpanningPrograms :
    (let s : State := { part wideProg { coreOf 0 [] with engs := SMap.empty.put 0 { Engine.reset with st := .idle, ctxs := SMap.empty.put 0 { Ctx.reset with supplied := 4 } } } with
       dict := SMap.empty.put (odKey 0x1010 9 0) 1 }
     s.live = true ∧ s.chipId ∈ wideProg.members ∧ s.filled wideProg = true ∧ s.aligned = true) ∧
    (let p := { wideProg with members := [0xFFFF, 3], readySent := true, ready := [0xFFFF, 3] }
     (part p .reset).leads p = false ∧ p.starting = true ∧ (part p .reset).time ≤ 0 ∧ (part p .reset).slew = 0 ∧ 7 < { part p .reset with time := 8 }.time) ∧
    (let s : State := { part { wideProg with readySent := true, ready := [0xFFFF, 3] } .reset with dict := SMap.empty.put (odKey 0x1200 4 0) 3 }
     s.live = true) ∧
    (let p := { wideProg with members := [0xFFFF], running := true, starting := false }
     (part p .reset).leads p = true ∧ 3 ∉ p.done) ∧
    (let p := { wideProg with members := [0xFFFF], readySent := true, ready := [0xFFFF] }
     (part p .reset).leads p = true ∧ ∀ m ∈ p.members, m ∈ p.ready) ∧
    (let p := { wideProg with running := true, starting := false }
     let u := (part p { Core.reset with prog := some 1, profile := 1, engs := SMap.empty.put 0 { Engine.reset with st := .running, boundary := true } }).settleProg 1
     ∃ q, u.prog 1 = some q ∧ u.live = true ∧ q.multi = true ∧ q.running = true ∧ u.chipId ∈ q.members ∧ q.doneSent = false ∧ u.commitReady q = true) ∧
    (let p := { wideProg with running := true, starting := false, doneSent := true }
     let s := part p { Core.reset with prog := some 1, engs := SMap.empty.put 0 { Engine.reset with st := .running } }
     p.remounting = false ∧ s.leads p = false ∧ s.vet = none ∧ p.thirdFailure = false ∧ { p with stepErr := 2, trigs := [.hang] }.thirdFailure = true) ∧
    (let p := { wideProg with members := [0xFFFF], running := true, starting := false, doneSent := true }
     let s := part p .reset
     s.leads p = true ∧ p.mayCommit = false ∧ { p with done := [0xFFFF], stepped := [0xFFFF] }.mayCommit = true ∧
       { p with done := [0xFFFF], ended := [0xFFFF] }.mayCommit = true) ∧
    (let p := { wideProg with running := true, starting := false, remounting := true, replayAt := some 5 }
     let s := part p .reset
     s.powered = true ∧ p.thirdFailure = false ∧ s.slew = 0 ∧ s.time ≤ 5) :=
  ⟨by decide, by decide, by decide, by decide, by decide, ⟨_, rfl, by decide⟩, by decide, by decide, by decide⟩

theorem witness_Escalations : up.powered = true ∧ 143 ∉ up.fuse.absent ∧ crossing 0 1 = true := by decide

theorem witness_Resets : up.powered = true ∧ up.managed = true ∧ up.pins.held = 0 ∧ State.reset.pins.held = 1 ∧
    { up with zeroed := false }.powered = true ∧ up.frozen = false ∧ up.clocks = true ∧ { up with pins := { up.pins with held := 2 } }.pins.held = 2 := by decide

theorem witness_PowerStates : up.pins.held = 0 ∧ up.managed = true ∧ (part prog .reset).anyRuns = true ∧ (part prog .reset).progs.entries ≠ [] ∧
    up.anyRuns = false ∧ up.pst = 0 ∧ up.exiting = false ∧ up.progs.entries = [] ∧ { up with pst := 3, exiting := true }.pins.held = 0 := by decide

/-! ### Witnesses: memory, banks, vetting and freezes -/

/-- A part with region 31 mirrored, its state `st`. -/
def mirrored (st : Nat) : State :=
  let s : State := { up with dict := ⟨[(odKey 0x3100 125 0, farBase), (odKey 0x3100 126 0, 0x20000000000), (odKey 0x3100 127 0, 1024), (odKey 0x3100 128 0, st), (odKey 0x3110 1 0, 1)]⟩ }
  { s with mem := { s.mem with mirrors := s.mirrorRows } }

theorem witness_MemoryEvents :
    up.counts = true ∧ 5 < up.rest.length ∧ up.nearOwner 5 = none ∧
    (let p := { prog with nearStacks := [5], stalls := [.hold] }
     (part p .reset).nearOwner 5 = some (1, p) ∧ p.stalls ≠ []) ∧
    isNear nearBase = true ∧ up.spans.get 0 (nearStack nearBase) ≠ up.restOf (nearStack nearBase) / 64 + 1 ∧
    (let p := { prog with nearStacks := [0] }
     let s := { part p .reset with spans := SMap.empty.put 0 1 }
     s.spans.get 0 (nearStack nearBase) = s.restOf (nearStack nearBase) / 64 + 1 ∧ s.nearOwner (nearStack nearBase) = some (1, p)) ∧
    up.mirrored nearBase = false ∧ (mirrored 1).mem.mirrorOf farBase = some ⟨farBase, 0x20000000000, 1024, 1⟩ ∧
    ((mirrored 1).val 0x3110 1 ≠ 0 ∧ (mirrored 1).counts = true ∧ region up.fuse.absent farBase = .far ∧ isNear farBase = false ∧
      (mirrored 1).activeRegion farBase = some 31 ∧ (mirrored 1).activeRegion (farBase + 1024) = none) ∧
    (let s := { mirrored 1 with mem := { (mirrored 1).mem with words := SMap.empty.put (farBase / 8) 1 } }
     s.copiesDiffer 31 farBase = true) ∧
    (region up.fuse.absent 8 = .scratch 0 8 ∧ 
      ((State.bgWait { up with cores := SMap.empty.put 0 (furnished 0 []) } 0).core 0).scr.bgTakes none [1] = true) ∧
    (nearStack (nearBase + 5 * stackSize) = 5 ∧ region up.fuse.absent (nearBase + 5 * stackSize) = .near 5 ∧
      (part { prog with nearStacks := [5], stalls := [.hold] } .reset).nearWaits (nearBase + 5 * stackSize) = true) ∧
    (up.mem.mirrorOf farBase = none ∧ up.activeRegion farBase = none) ∧
    ((mirrored 3).mirrorRow 31).state = 3 ∧ (mirrored 3).counts = true ∧
    ((mirrored 1).commits = true ∧ ((mirrored 1).setVal 0x3100 128 0).mirrorsCommit (mirrored 1).mirrorRow = true) := by decide

set_option maxRecDepth 4000 in
theorem witness_BankPower :
    up.counts = true ∧ up.commits = true ∧ up.banksOk 143 65536 = false ∧ up.banksOk 143 65535 = true ∧
    (let k : Core := { Core.reset with scr := { Scratch.reset with banksWaking := 32768, banksDraining := 1 } }
     let s : State := { up with cores := SMap.empty.put 143 k }
     nbit (s.core 143).scr.banksWaking 15 = true ∧ nbit (s.core 143).scr.banksDraining 0 = true) ∧
    (up.setVal 0x4000 7 65536).coreMapOk = false ∧ (up.setVal 0x4000 7 65535).coreMapOk = true ∧
    (let s := part prog .reset
     let u := s.setVal 0x4000 5 2
     u.coreMapOk = true ∧ s.prog 1 = some prog ∧ 0 ∈ prog.cores ∧ nbit s.enabledMask 0 = true ∧ nbit u.enabledMask 0 = false) := by decide

/-- A record of this program fits in far memory, whatever length its copy has. -/
theorem record_fits : (part prog .reset).recordOk 1 (farBase + 0x100000000) = true := by
  have e : ((part prog .reset).stepRecord prog).count = 4 + 1 * (Config.copyWords 0 % 65536) := rfl
  have h := Nat.mod_lt (Config.copyWords 0) (show 0 < 65536 by decide)
  have g : ∀ n, n ≤ 1048576 → (part prog .reset).recordAreaOk (farBase + 0x100000000) n = true := by
    intro n hn
    have a : farBase + 0x100000000 + n ≤ farEnd := by unfold farBase farEnd; omega
    have b : decide (farBase + 0x100000000 + n ≤ farEnd) = true := decide_eq_true a
    show (true && true && decide (farBase + 0x100000000 + n ≤ farEnd) && true &&
      ((decide (farBase + 0x100000000 + n ≤ 0x100000000) || true) && true)) = true
    rw [b]; simp
  show (true && (part prog .reset).recordAreaOk _ (max 1024 (8 * ((part prog .reset).stepRecord prog).count))) = true
  rw [e, g _ (by omega)]; rfl

theorem witness_VettingRuns :
    up.commits = true ∧ up.live = true ∧ up.vet = none ∧ { up with vet := some ⟨1, 0, [143], 0, 0, true, none⟩ }.live = true ∧
    up.recordOk 1 farBase = false ∧ (part prog .reset).recordOk 1 (farBase + 0x100000000) = true ∧
    ((part idleProg .reset).prog 1 = some idleProg ∧ idleProg.running = false ∧ idleProg.starting = false) ∧
    ((part prog .reset).prog 1 = some prog ∧ prog.running = true) ∧
    (let s := { part prog (coreOf 0 [wordNop 0 plain]) with vet := some ⟨3, 1, [0], 0, 0, true, none⟩ }
     ∃ p, (s.settleProg 1).prog 1 = some p ∧ (s.settleProg 1).commitReady p = false) :=
  ⟨by decide, by decide, by decide, by decide, by decide, record_fits, by decide, by decide, _, rfl, by decide⟩

theorem witness_Freezes :
    { up with frz := 3 }.frozen = true ∧ { up with frz := 2, dict := SMap.empty.put (odKey 0x9000 6 0) 4 }.val 0x9000 8 = up.time ∧
    1 < { up with frz := 2, dict := SMap.empty.put (odKey 0x9000 6 0) 4 }.val 0x9000 6 ∧ { up with frz := 2 }.powered = true ∧ up.frozen = false ∧ up.powered = true ∧ up.managed = true ∧ (part prog .reset).prog 1 = some prog ∧
    (let s : State := { up with frz := 1, dict := ⟨[(odKey 0x9000 1 0, 1), (odKey 0x9000 3 0, 5)]⟩ }
     s.val 0x9000 1 = 1 ∧ s.counts = true ∧ s.slew = 0 ∧ s.time ≤ s.val 0x9000 3 ∧ s.progs.entries = []) ∧
    (let s : State := { part prog .reset with frz := 1, dict := ⟨[(odKey 0x9000 1 0, 2), (odKey 0x9000 2 0, 1)]⟩ }
     s.prog (s.val 0x9000 2) = some prog ∧ s.val 0x9000 1 = 2 ∧ s.fired = false ∧ s.live = true ∧ s.progCycle prog = s.val 0x9000 3 ∧
       prog.issues = true ∧ s.progCycle prog < State.val { s with dict := s.dict.put (odKey 0x9000 3 0) 7 } 0x9000 3 ∧
       s.val 0x9000 3 < State.progCycle { s with cyc := 7 } prog) ∧
    (let s : State := { up with frz := 2, queues := SMap.empty.put 0 { HQueue.reset with st := 1 } }
     s.managed = true ∧ s.readoutOk = true) ∧
    (let s : State := { up with frz := 4, dict := SMap.empty.put (odKey 0x9000 4 0) 1 }
     s.endOk = true ∧ s.val 0x9000 4 = 1) ∧ { up with frz := 4 }.endOk = true ∧ up.val 0x9000 4 = 0 := by decide

theorem witness_RemovedTime :
    up.domRuns 38 = true ∧ { up with pst := 2 }.domRuns 38 = true ∧ up.slew = 0 ∧ (up.lastStretch.entries.find? fun e => e.1 == 38) = none ∧
    (let s : State := { up with lastStretch := SMap.empty.put 38 0 }
     (s.lastStretch.entries.find? fun e => e.1 == 38) = some (38, 0) ∧ s.domCycle 38 ≤ 0 + 1) ∧
    { up with strWin := [(0, 126)] }.windowSum = 126 ∧ up.inForced = false ∧ up.windowSum ≤ 125 ∧
    up.powered = true ∧ up.frozen = false ∧ up.limiter = 0 ∧ { up with frz := 2 }.frozen = true ∧ up.pins.held &&& 8 = 0 ∧ up.cyc / 4096 = up.furlongNo ∧ 0 < up.val 0x2100 1 ∧
    (let s : State := { up with dict := ⟨[(odKey 0x1010 9 0, 1), (odKey 0x2000 9 0, 1), (odKey 0x2000 10 0, 2)]⟩ }
     s.managed = true ∧ s.val 0x1010 9 ≠ 0 ∧ s.val 0x2000 9 ≠ 0 ∧ 2 ≤ s.val 0x2000 10) := by decide

/-! ### Witnesses: the fabric and the host attachment -/

theorem crc32Step_lt (r : Nat) (b : Bool) : crc32Step r b < 2 ^ 32 := by
  have h : r * 2 % 2 ^ 32 < 2 ^ 32 := Nat.mod_lt _ (by decide)
  unfold crc32Step
  dsimp only
  split
  · exact Nat.xor_lt_two_pow h (by decide)
  · exact h

theorem crc32Feed_lt (v k : Nat) : ∀ r, r < 2 ^ 32 → crc32Feed v k r < 2 ^ 32 := by
  induction k with
  | zero => intro r h; exact h
  | succ k ih => intro r _; exact ih _ (crc32Step_lt _ _)

theorem crcOf_lt (f : Sys2Proof.Flit) : Flit.crcOf f < 2 ^ 32 := by
  unfold Flit.crcOf
  dsimp only
  refine Nat.xor_lt_two_pow (crc32Feed_lt _ _ _ ?_) (by decide)
  have h : ∀ (l : List Word) (r : Nat), r < 2 ^ 32 → l.foldl (fun r w => crc32Feed w.toNat 72 r) r < 2 ^ 32 := by
    intro l
    induction l with
    | nil => intro r h; exact h
    | cons w l ih => intro r h; exact ih _ (crc32Feed_lt _ _ _ h)
  exact h _ _ (crc32Feed_lt _ _ _ (by decide))

/-- A flit of type `typ` with SEQ `seq` whose CRC field is off by `k`. -/
def flitOf (typ seq k : Nat) : Sys2Proof.Flit :=
  let f : Sys2Proof.Flit := ⟨BitVec.ofNat 72 (typ * 2 ^ 69), List.replicate 8 0, BitVec.ofNat 72 (seq * 2 ^ 52)⟩
  { f with trailer := BitVec.ofNat 72 (seq * 2 ^ 52 + (Flit.crcOf f + k) % 2 ^ 32) }

theorem flit_fields (typ seq k : Nat) (h : seq < 4096) :
    Flit.crcOk (flitOf typ seq k) = decide (k % 2 ^ 32 = 0) ∧ Flit.seq (flitOf typ seq k) = seq := by
  have c := crcOf_lt ⟨BitVec.ofNat 72 (typ * 2 ^ 69), List.replicate 8 0, BitVec.ofNat 72 (seq * 2 ^ 52)⟩
  have e : ∀ x, x < 2 ^ 32 → bits (BitVec.ofNat 72 (seq * 2 ^ 52 + x)) 71 32 = bits (BitVec.ofNat 72 (seq * 2 ^ 52)) 71 32 ∧
      bits (BitVec.ofNat 72 (seq * 2 ^ 52 + x)) 31 0 = x ∧ bits (BitVec.ofNat 72 (seq * 2 ^ 52 + x)) 63 52 = seq := by
    intro x hx
    simp only [bits, BitVec.toNat_ofNat]
    omega
  have m : (Flit.crcOf ⟨BitVec.ofNat 72 (typ * 2 ^ 69), List.replicate 8 0, BitVec.ofNat 72 (seq * 2 ^ 52)⟩ + k) % 2 ^ 32 < 2 ^ 32 := Nat.mod_lt _ (by decide)
  obtain ⟨e1, e2, e3⟩ := e _ m
  refine ⟨?_, e3⟩
  have o : Flit.crcOf (flitOf typ seq k) = Flit.crcOf ⟨BitVec.ofNat 72 (typ * 2 ^ 69), List.replicate 8 0, BitVec.ofNat 72 (seq * 2 ^ 52)⟩ := by
    unfold Flit.crcOf flitOf
    dsimp only
    rw [show ∀ a, bits (BitVec.ofNat 72 (seq * 2 ^ 52 + (a + k) % 2 ^ 32)) 71 32 = bits (BitVec.ofNat 72 (seq * 2 ^ 52)) 71 32 from
      fun a => (e _ (Nat.mod_lt _ (by decide))).1]
  have q : bits (flitOf typ seq k).trailer 31 0 = _ := e2
  unfold Flit.crcOk
  rw [o, q]
  simp only [flitOf, List.length_replicate, beq_self_eq_true, Bool.true_and, Bool.beq_eq_decide_eq]
  exact decide_eq_decide.mpr (by omega)

/-- A part in operation whose port 11 is `j`. -/
def portAt (j : JPort) : State := { up with jports := SMap.empty.put 11 j }

/-- Declared latencies over port 11. -/
def overPort : Prog := { prog with slots := { SlotDecl.none with lat := [(11, 256)] } }

theorem witness_LinkLayer :
    (portAt { JPort.reset with st := 3 }).linked = true ∧ (JPort.carries { JPort.reset with st := 3 }) = true ∧
    Flit.crcOk (flitOf 0 0 1) = false ∧
    (Flit.crcOk (flitOf 0 1 0) = true ∧ Flit.sequenced (flitOf 0 1 0) = true ∧ Flit.seq (flitOf 0 1 0) ≠ 0) ∧
    (Flit.crcOk (flitOf 0 4095 0) = true ∧ Flit.seq (flitOf 0 4095 0) = { JPort.reset with st := 4, recvSeq := 4095 }.recvSeq) ∧
    (Flit.crcOk (flitOf 6 0 0) = true ∧ Flit.sequenced (flitOf 6 0 0) = false) ∧
    (let j := { JPort.reset with st := 3, nakRun := 15, nakSeq := 4095, replay := [⟨flitOf 0 0 0, none, none⟩] }
     (portAt j).linked = true ∧ j.carries = true ∧ j.replay ≠ []) ∧
    (portAt { JPort.reset with st := 1, retrain := true }).scheduledOver 11 = false ∧ (portAt { JPort.reset with st := 1, retrain := true }).val 0x120B 1 = 1 ∧
    { portAt { JPort.reset with st := 2, retrain := true } with progs := SMap.empty.put 1 overPort }.scheduledOver 11 = true := by
  refine ⟨by decide, by decide, (flit_fields 0 0 1 (by decide)).1, ⟨(flit_fields 0 1 0 (by decide)).1, by rfl, ?_⟩,
    ⟨(flit_fields 0 4095 0 (by decide)).1, (flit_fields 0 4095 0 (by decide)).2⟩, ⟨(flit_fields 6 0 0 (by decide)).1, by rfl⟩,
    ⟨by rfl, by rfl, by simp⟩, by decide, by decide, by decide⟩
  rw [(flit_fields 0 1 0 (by decide)).2]; decide

/-- A part that has taken chip number 0 of a system of two in dimension 5. -/
def placed : State :=
  { portAt { JPort.reset with st := 1 } with dict := ⟨[(odKey 0x1010 1 0, 0), (odKey 0x1010 2 0, 6), (odKey 0x1010 8 0, 2), (odKey 0x1210 7 0, 1)]⟩ }

/-- A part whose port 11 is Up and leads to the time root: of two chips in dimension 5 it is the one that the root is not. -/
def nearRoot (st : Nat) : State :=
  { portAt { JPort.reset with st := 3 } with
    dict := ⟨[(odKey 0x1010 1 0, 1 - Config.timeRoot % 2), (odKey 0x1010 2 0, 6), (odKey 0x1010 8 0, 2), (odKey 0x1010 10 0, st)]⟩ }

theorem two_chips (r : Nat) : chipPort [1, 1, 1, 1, 1, 2] (1 - r % 2) r = some 11 := by
  rcases Nat.mod_two_eq_zero_or_one r with h | h <;> simp [chipPort, coordsOf, firstDiff, Nat.mod_one, h]

theorem witness_TimeRoot :
    (∀ st, (nearRoot st).linked = true ∧ (nearRoot st).commits = true ∧ ((nearRoot st).jport 11).st = 3 ∧ (nearRoot st).rootPort = some 11) ∧
    (nearRoot 0).val 0x1010 0xA = 0 ∧ (nearRoot 2).val 0x1010 0xA ≠ 0 ∧
    (let s : State := { portAt { JPort.reset with st := 3 } with dict := SMap.empty.put (odKey 0x1010 9 0) 1 }
     s.rootPort ≠ some 11) :=
  ⟨fun st => ⟨by rfl, by rfl, by rfl, two_chips _⟩, by decide, by decide, by decide⟩

theorem witness_InboxFlit :
    let w : Flow := ⟨11, 0, 0, 512, true, 7⟩
     let p := { prog with slots := { SlotDecl.none with flows := [w] } }
     let s : State := { part p (furnished 5 []) with inbox := [(11, flitOf 0 0 0)], jports := SMap.empty.put 11 { JPort.reset with st := 3 } }
     p.issues = true ∧ (p.slots.flows.any fun x => x.station == 11 && x.flow == 0) = true ∧
       (takeFirst (fun t => t.station == 11 && t.prog == 1 && t.flow == 0 && t.word == 0) s.timing).isNone = true ∧
       (takeFirst (fun e => e.1 == 11 && Flit.flow e.2 == 0 && Flit.wordNo e.2 == 0) s.inbox).isSome = true ∧ (s.jport 11).carries = true ∧
       (∀ e ∈ ([] : List (Nat × Sys2Proof.Flit)), (e.1 == 11 && Flit.flow e.2 == 0 && Flit.wordNo e.2 == 0) = false) := by decide

theorem witness_PortBringUp :
    placed.linked = true ∧ placed.commits = true ∧ placed.portMay 11 = true ∧ placed.slew = 0 ∧ placed.val 0x120B 7 = 0 ∧
      ({ placed with dict := placed.dict.put (odKey 0x120B 7 0) 1 }.val 0x120B 7) ≠ 0 ∧ nbit (1 &&& placed.val 0x10 2) 0 = true ∧
      nbit (0 &&& placed.val 0x10 2) 0 = false ∧ placed.peerOf 11 ≠ (7, 7) ∧ placed.val 0x1010 9 = 0 ∧ placed.live = true ∧ placed.isHere 1 = false ∧
    placeOk 65535 6 [255, 1, 1, 1, 1, 255] = true ∧ placeOk 0 7 [1, 1, 1, 1, 1, 1] = false ∧ placed.progs.entries = [] ∧ placed.scheduledOver 11 = false ∧
    (let s := part overPort .reset
     s.scheduledOver 11 = true ∧ s.live = true ∧ s.commits = true) ∧
    (∀ ring ∈ [false, true],
     let w : Flow := ⟨11, 3, 0, 512, ring, 7⟩
     let p := { prog with slots := { SlotDecl.none with flows := [w] } }
     let t : TimedFlit := { station := 11, prog := 1, flow := 3, word := 0, due := 20, data := wordNts 1 false }
     let k := { furnished 5 [] with me := { Me.reset with
       ends := SMap.empty.put 7 { MEnd.reset with role := 2, cls := 2, cap := 8 }, comb := SMap.empty.put 7 { CombQ.reset with valid := true } } }
     let s : State := { part p k with timing := [t] }
     let u := { s with timing := [] }.addCycles (20 - s.progCycle p)
     p.issues = true ∧ (p.slots.flows.any fun x => x.station == 11 && x.flow == 3) = true ∧
       takeFirst (fun t => t.station == 11 && t.prog == 1 && t.flow == 3 && t.word == 0) s.timing = some (t, []) ∧
       (p.slots.flows.find? fun y => y.station == 11 && y.flow == 3) = some w ∧ s.time + t.due < 2 ^ 64 ∧
       (u.core 0).writeRefused (u.env 0).step (512 + 8 * (u.core 0).ringPos 7 + 8 * 0) 8 = none ∧ ((u.core 0).me.comb.get .reset 7).valid = true ∧
       (wordNts 1 false).length = 8 * (((u.core 0).me.comb.get .reset 7).size + 1)) ∧
    (State.jport { placed with jports := .empty } 11).st = 0 ∧ placed.val 0x120B 1 = 1 ∧
    { JPort.reset with st := 7 }.st = 7 ∧ { JPort.reset with st := 6 }.st = 6 := by decide

/-- A part whose host ports are Up and whose queue 4095 is `h`. -/
def hostPart (h : HQueue) : State :=
  { up with hports := ⟨[(0, ⟨2, []⟩), (1, ⟨2, []⟩), (2, ⟨2, []⟩), (3, ⟨2, []⟩)]⟩, queues := SMap.empty.put 4095 h }

theorem witness_HostQueues :
    (let s := hostPart { HQueue.reset with st := 1, tail := 4294967290, begun := 4294967290, cprod := 5 }
     s.qpTakes 4095 = true ∧ s.qpRuns 4095 = true ∧ s.sends 4095 = true ∧ (s.queue 4095).tailOk 64 58 = true ∧ (s.queue 4095).tailOk 64 59 = false ∧
       (s.queue 4095).headOk 64 69 = true ∧ (s.queue 4095).headOk 64 70 = false ∧ (s.queue 4095).headOk 64 4294967295 = false ∧
       ofOctets (([1, 0, 0, 0, 5, 0, 0, 0] : List (BitVec 8)).take 2) = 1 ∧ ofOctets (([2, 0, 0, 0, 5, 0, 0, 0] : List (BitVec 8)).take 2) = 2 ∧
       { s with held := [(4095, 16, .ack 4095)] }.sends 4095 = false ∧ { s with held := [(4095, 16, .ack 4095)] }.qpTakes 4095 = true) ∧
    (hostPart { HQueue.reset with st := 2 }).qpTakes 4095 = false ∧ { hostPart { HQueue.reset with st := 1 } with frz := 2 }.qpTakes 4095 = false ∧
    (State.val { hostPart .reset with dict := SMap.empty.put (odKey 0x1100 9 0) 1 } 0x1100 9) = 1 ∧
    (let s := hostPart { HQueue.reset with st := 1, waiting := [⟨7, 0, 0, 0, 0, 0, 0⟩] }
     s.ringRoom 4095 = true) ∧
    (hostPart .reset).queueOk 4095 = false ∧ (hostPart .reset).commits = true ∧
    { hostPart .reset with dict := ⟨[(odKey 0x1180 6 4095, 1), (odKey 0x1180 8 4095, farBase)]⟩ }.queueOk 4095 = true ∧ (HQueue.reset).st = 0 ∧
    (let s := hostPart { HQueue.reset with st := 1, unacked := 1, retries := 7 }
     s.opsLive 4095 = true ∧ s.outstanding 4095 = true ∧ (s.hport (s.portOf 4095)).st = 2) ∧
    (hostPart { HQueue.reset with st := 3 }).powered = true ∧ (hostPart { HQueue.reset with st := 3 }).frozen = false := by decide

theorem witness_HostPorts :
    (hostPart .reset).hostRuns 3 = true ∧ ((hostPart .reset).hport 3).st = 2 ∧ (hostPart .reset).powered = true ∧ (hostPart .reset).commits = true ∧
    (7 < 8 ∧ nbit (State.val { hostPart .reset with dict := SMap.empty.put (odKey 0x1103 8 0) 128 } 0x1103 8) 7 = true) ∧
    (let s : State := { up with hports := SMap.empty.put 3 ⟨4, []⟩ }
     (s.hport 3).st = 4 ∧ s.commits = true) ∧ (State.hport { up with hports := SMap.empty.put 3 ⟨1, []⟩ } 3).st = 1 ∧
    (let s : State := { up with hports := SMap.empty.put 3 ⟨3, []⟩ }
     (s.hport 3).st = 3 ∧ s.frozen = false ∧ s.moving.entries = [] ∧ ∀ q ∈ s.enabledQueues, s.portOf q = 3 → (s.queue q).st ≠ 1) := by decide

/-- A WINDOW entry for window 1023 of 64 nonets at an address. -/
def windowEntry (destroy : Bool) : Entry :=
  front (entryOf 7 [BitVec.ofNat 72 (b2n destroy * 2 ^ 71 + 2 ^ 68 + 2 ^ 66 + 1023), BitVec.ofNat 72 (farBase + 0x100000), 64, 0, 0, 0, 0])

/-- The part that holds this entry, on a queue with or without admin. -/
def windowPart (destroy admin : Bool) (w : Win) : State :=
  let s := queued idleProg .reset (windowEntry destroy).w
  { s with
    dict := ⟨[(odKey 0x1180 5 4095, b2n admin), (odKey 0x1180 8 4095, farBase)]⟩
    wins := SMap.empty.put 1023 w, hports := ⟨[(0, ⟨2, []⟩)]⟩ }

theorem witness_Windows :
    (∀ d ∈ [false, true], ∀ a ∈ [false, true],
      let e := windowEntry d
      let s := windowPart d a .reset
      s.nextEntry 4095 = some e ∧ e.defined = true ∧ e.reserved = false ∧ s.entryPoisoned e = false ∧
        s.latentFault (s.entryAddr 4095 e.num) 64 = .none ∧ e.op = 7 ∧ bit (e.word 1) 71 = d ∧ e.q = 4095 ∧
        (s.beginEntry e).valAt 0x1180 5 4095 = b2n a) ∧
    (let e := windowEntry false
     let b := (windowPart false true .reset).beginEntry e
     ∀ tag, b.windowOk 1023 (e.win tag) = true) ∧
    ((windowPart true true { Win.reset with st := 1 }).win 1023).st = 1 ∧ ((windowPart true true { Win.reset with st := 2 }).win 1023).st = 2 ∧
    (windowPart true true .reset).frozen = false ∧
    (let w : Win := { Win.reset with st := 1, rd := true, wr := true, anyq := true, base := farBase + 0x100000, size := 64, tag := 5 }
     let s := windowPart false true w
     s.qpTakes 4095 = true ∧ s.sends 4095 = true ∧ s.counts = true ∧ { s with pst := 2 }.counts = false ∧ { s with pst := 2 }.qpTakes 4095 = true ∧ (s.win (6143 % 1024)) = w ∧ w.allows 4095 6143 true = true ∧ w.covers 0 9 = true ∧ w.covers 72 9 = false ∧
       w.allows 4095 1023 true = false ∧ w.allows 4095 6143 false = true ∧
       (let n := { w with base := nearBase }
        n.covers 0 9 = true ∧
          { s with progs := SMap.empty.put 1 { prog with nearStacks := [0], stalls := [.hold] } }.nearWaits (n.base + convNts n.conv 0) = true) ∧
       s.nearWaits (w.base + convNts w.conv 0) = false ∧ (s.rxFrames (s.portOf 4095) 1).hostRead .none (w.base + convNts w.conv 0) (convNts w.conv 9) ≠ none ∧
       ((s.rxFrames (s.portOf 4095) 1).writePackets w.conv .none (w.base + convNts w.conv 0) (packetsOf (convUnit w.conv) (s.mtuOf 4095) 1 0 0 (List.replicate 9 1))).2 = true) :=
  ⟨by decide, fun tag => Eq.trans (show State.windowOk _ 1023 ((windowEntry false).win tag) = State.windowOk _ 1023 ((windowEntry false).win 0) from rfl) (by decide), by decide, by decide, by decide⟩

/-! ### Witnesses: Irair, the dictionary and the management controllers -/

/-- A session of a role, with key 0. -/
def sessionOf (role : Nat) : IrSess := ⟨role, 0, 0, 0, 0, [], .empty, 0, [], false⟩

/-- A part in operation, node 1 of its segment, with this session 9. -/
def managedPart (i : IrSess) : State :=
  { up with dict := SMap.empty.put (odKey 0x1000 1 0) 1, irs := SMap.empty.put 9 i }

/-- That part with a transaction of a session, or none, and pending sessions. -/
def busyPart (i : IrSess) (t : Option Nat) (l : SMap IrPend) : State := { managedPart i with txn := t.map fun n => ⟨n, 0, []⟩, irp := l }

/-- A request frame to node 1; flag 0 says that it carries a tag. -/
def frameOf (flags frag session seq : Nat) (payload : List (BitVec 8)) : Sys2Proof.Frame :=
  { ep := .segment 1 (up.val 0x1020 1), total := 20 + payload.length + (if nbit flags 0 then 16 else 0), magic := 0x4952, version := 1, kind := 1, status := 0, flags := flags
    frag := frag, session := session, seq := seq, reqId := 77, length := payload.length, payload := payload, tag := 0 }

/-- The frame with the tag of operation `op` under key 0. -/
def tagFrame (op : Nat) (f : Sys2Proof.Frame) : Sys2Proof.Frame :=
  { f with tag := frameTag 0 (headOctets 1 op f.status f.flags f.frag f.session f.seq f.reqId f.length ++ f.payload) }

/-- A request of session 9 in one frame with a tag. -/
def requestOf (op seq : Nat) (payload : List (BitVec 8)) : Sys2Proof.Frame := tagFrame op (frameOf 1 0 9 seq payload)

theorem tag_ok (op : Nat) (f : Sys2Proof.Frame) (h : nbit f.flags 0 = true) : tagOk (tagFrame op f) op 0 = true := by
  simp [tagOk, tagged, tagFrame, h]

theorem request_tag (op seq : Nat) (l : List (BitVec 8)) : tagOk (requestOf op seq l) op 0 = true := tag_ok op _ (show nbit 1 0 = true by decide)

theorem request_good (op seq : Nat) (l : List (BitVec 8)) (h : l.length ≤ 1196) : badFrame (requestOf op seq l) = false := by
  simp [badFrame, requestOf, tagFrame, frameOf, tagged, nbit]
  omega

set_option maxRecDepth 8000 in
theorem udp_here : up.val 0x1020 1 = State.val { up with dict := SMap.empty.put (odKey 0x1000 1 0) 1 } 0x1020 1 := by decide

theorem hears_of (i : IrSess) (t : Option Nat) (l : SMap IrPend) (f : Sys2Proof.Frame) (h : i.since = 0) (hl : livePend l 0 = l)
    (g : f.ep = .segment 1 (up.val 0x1020 1) ∧ f.version = 1 ∧ badFrame f = false) : (busyPart i t l).Hears f := by
  obtain ⟨g1, g2, g3⟩ := g
  have e : (busyPart i t l).expireIr = busyPart i t l := by
    obtain ⟨a, b, c, d, e, f, g, h, j, k⟩ := i
    simp only at h
    subst h
    have r : ∀ m, State.expireIr { busyPart ⟨a, b, 0, d, e, f, g, h, j, k⟩ t m with irp := m } =
        { busyPart ⟨a, b, 0, d, e, f, g, h, j, k⟩ t m with irp := livePend m 0 } := by
      cases t <;> intro m <;> rfl
    exact (r l).trans (by rw [hl]; rfl)
  exact ⟨by rfl, g1.trans (congrArg _ udp_here), show (1 : Nat) ≠ 0xFF by decide, e, g3, g2⟩

theorem asks_of (op : Nat) (i : IrSess) (t : Option Nat) (l : List (BitVec 8)) (hs : i.since = 0) (hk : i.key = 0) (h : i.lastSeq = 0) (hl : l.length ≤ 1196) :
    (busyPart i t .empty).Asks op i (requestOf op 1 l) :=
  ⟨hears_of i t .empty _ hs rfl ⟨rfl, rfl, request_good op 1 l hl⟩, by rfl, by rw [hk]; exact request_tag op 1 l, by rw [h]; rfl, .inl h,
    show (9 : Nat) ≠ 0 by decide, rfl, show nbit 1 2 = false by decide⟩

theorem unauth_of (i : IrSess) (t : Option Nat) (l : SMap IrPend) : ∃ u, (busyPart i t l).unauth = some u := by
  have h : 0 < State.val { up with dict := SMap.empty.put (odKey 0x1000 1 0) 1 } 0x1020 4 := by decide
  unfold State.unauth
  dsimp only
  rw [if_pos]
  · exact ⟨_, rfl⟩
  · rw [show (busyPart i t l).unauthN = 0 from rfl, ite_self]
    exact h

set_option maxRecDepth 8000 in
theorem witness_IrairRequests :
    (∀ op, tagOk (frameOf 0 0 9 5 []) op 0 = false ∧ tagOk (requestOf op 1 []) op 0 = true ∧ tagOk (requestOf op 5 []) op 0 = true ∧
      (let i := { sessionOf 1 with lastSeq := 1, lastReq := 77 }
       (busyPart i none .empty).Hears (frameOf 0 0 9 5 []) ∧ (busyPart i none .empty).Hears (requestOf op 1 []) ∧
         (busyPart i none .empty).Hears (requestOf op 5 []) ∧ (busyPart i none .empty).irSess 9 = some i ∧
         (requestOf op 1 []).seq = i.lastSeq ∧ (requestOf op 1 []).reqId = i.lastReq ∧ i.lastSeq ≠ 0 ∧ (requestOf op 5 []).seq ≠ (i.lastSeq + 1) % 2 ^ 32 ∧
         (requestOf op 5 []).seq ≠ i.lastSeq)) ∧
    ((∀ l : List (BitVec 8), l.length ≤ 100 → (busyPart (sessionOf 1) none .empty).Asks 1 (sessionOf 1) (requestOf 1 1 l)) ∧
      (itemsOf true [1, 1, 0, 0x10, 0, 0]).isSome = true ∧ itemsOf true [1, 1] = none) ∧
    ((∀ l : List (BitVec 8), l.length ≤ 100 → (busyPart (sessionOf 2) none .empty).Asks 2 (sessionOf 2) (requestOf 2 1 l)) ∧ (sessionOf 2).late = false ∧
      (itemsOf false [1, 0, 0x60, 2, 1, 0, 1]).isSome = true ∧ itemsOf false [1, 1] = none) ∧
    ((∀ a b c, (busyPart (sessionOf 1) none .empty).Asks 3 (sessionOf 1) (requestOf 3 1 [a, b, c])) ∧ (odRow 0x1000 1).isSome = true ∧
      State.describe up 0xFFFF 0xFF = none) ∧
    ((∀ a b c, (busyPart (sessionOf 1) none .empty).Asks 4 (sessionOf 1) (requestOf 4 1 [a, b, c])) ∧ (nextEntryOf 0).isSome = true) ∧
    (∀ t, (busyPart (sessionOf 1) t .empty).Asks 18 (sessionOf 1) (requestOf 18 1 []) ∧ (busyPart (sessionOf 1) t .empty).Asks 32 (sessionOf 1) (requestOf 32 1 []) ∧
      (busyPart (sessionOf 1) t .empty).Asks 33 (sessionOf 1) (requestOf 33 1 []) ∧ (busyPart (sessionOf 1) t .empty).Asks 34 (sessionOf 1) (requestOf 34 1 [])) ∧
    (busyPart (sessionOf 1) none .empty).txn = none ∧ (busyPart (sessionOf 1) (some 9) .empty).txn = some ⟨9, 0, []⟩ ∧
    (busyPart (sessionOf 1) (some 3) .empty).txn = some ⟨3, 0, []⟩ ∧
    (let s := busyPart (sessionOf 1) none .empty
     ∀ l : List (BitVec 8), l.length = 66 →
       s.Hears (frameOf 0 0 0 0 l) ∧ s.irSess 0 = none ∧ s.irPend 0 = none ∧ (∃ u, s.unauth = some u) ∧ s.irp.entries.length < 4 ∧
         s.irs.entries.length + s.irp.entries.length < 8) ∧
    nbit (ofOctets (([1, 0] : List (BitVec 8)) ++ List.replicate 64 0 |>.take 2)) 0 = true := by
  have q : ∀ op n, n = 1 ∨ n = 5 → (busyPart { sessionOf 1 with lastSeq := 1, lastReq := 77 } none .empty).Hears (requestOf op n []) := fun op n _ =>
    hears_of _ none .empty _ rfl rfl ⟨rfl, rfl, request_good op n [] (by decide)⟩
  refine ⟨fun op => ⟨by simp [tagOk, tagged, frameOf, nbit], request_tag op 1 [], request_tag op 5 [], ?_, q op 1 (.inl rfl), q op 5 (.inr rfl), rfl, rfl, rfl,
      show (1 : Nat) ≠ 0 by decide, show (5 : Nat) ≠ 2 by decide, show (5 : Nat) ≠ 1 by decide⟩,
    ⟨fun l h => asks_of 1 _ none l rfl rfl rfl (by omega), by decide, by decide⟩,
    ⟨fun l h => asks_of 2 _ none l rfl rfl rfl (by omega), rfl, by decide, by decide⟩,
    ⟨fun a b c => asks_of 3 _ none _ rfl rfl rfl (by simp), by decide, by rfl⟩,
    ⟨fun a b c => asks_of 4 _ none _ rfl rfl rfl (by simp), by decide⟩,
    fun t => ⟨asks_of 18 _ t _ rfl rfl rfl (by decide), asks_of 32 _ t _ rfl rfl rfl (by decide), asks_of 33 _ t _ rfl rfl rfl (by decide),
      asks_of 34 _ t _ rfl rfl rfl (by decide)⟩, rfl, rfl, rfl, ?_, by decide⟩
  · exact hears_of _ none .empty _ rfl rfl ⟨rfl, rfl, by decide⟩
  · intro s l h
    refine ⟨hears_of _ none .empty _ rfl rfl ⟨rfl, rfl, ?_⟩, rfl, rfl, unauth_of _ _ _, by decide, by decide⟩
    simp [badFrame, frameOf, tagged, nbit, h]

/-- An AUTH message in progress. -/
def pendOf (frags : List AuthFrag) : IrPend := ⟨0, [], 0, 0, 0, [], frags, 77, 0⟩

/-- A part with the pending session 5 that has these frames of its AUTH message. -/
def pendPart (frags : List AuthFrag) : State := busyPart (sessionOf 1) none (SMap.empty.put 5 (pendOf frags))

theorem auth_message (a b c : List (BitVec 8)) : authFits [⟨0, true, a⟩, ⟨1, true, b⟩, ⟨2, false, c⟩] = true ∧
    authMessage [⟨0, true, a⟩, ⟨1, true, b⟩, ⟨2, false, c⟩] = some (a ++ (b ++ (c ++ []))) := ⟨rfl, rfl⟩

theorem witness_IrairSessions :
    (∀ (frags : List AuthFrag) (flags frag : Nat) (l : List (BitVec 8)), flags = 0 ∨ flags = 4 → l.length ≤ 1212 →
      (pendPart frags).Hears (frameOf flags frag 5 0 l) ∧ (pendPart frags).irSess 5 = none ∧ (pendPart frags).irPend 5 = some (pendOf frags) ∧
        (∃ u, (pendPart frags).unauth = some u) ∧ (pendOf frags).reqId = (frameOf flags frag 5 0 l).reqId) ∧
    (∀ a b : List (BitVec 8), authFits [⟨1, false, a⟩, ⟨0, false, b⟩] = false ∧ authFits [⟨0, true, a⟩] = true ∧ authMessage [⟨0, true, a⟩] = none ∧
      authFits [⟨0, false, []⟩] = true ∧ authMessage [⟨0, false, []⟩] = some []) ∧
    (∀ a b c : List (BitVec 8), a.length = 1212 → b.length = 1212 → c.length = 1084 →
      authFits [⟨0, true, a⟩, ⟨1, true, b⟩, ⟨2, false, c⟩] = true ∧
        ∃ msg, authMessage [⟨0, true, a⟩, ⟨1, true, b⟩, ⟨2, false, c⟩] = some msg ∧ msg.length = 3508) ∧
    (pendOf [⟨0, true, []⟩]).frags ≠ [] ∧ (pendPart [⟨0, true, []⟩]).slew = 0 ∧ (pendOf []).since + 5000000000 < 2 ^ 64 ∧
    (managedPart (sessionOf 1)).irSess 9 = some (sessionOf 1) ∧ (sessionOf 1).since + (managedPart (sessionOf 1)).val 0x1020 3 * 1000000000 < 2 ^ 64 ∧
    (busyPart (sessionOf 1) (some 9) .empty).ownsTxn 9 = true := by
  refine ⟨fun frags flags frag l hf hl => ⟨hears_of _ none _ _ rfl rfl ⟨rfl, rfl, ?_⟩, rfl, rfl, unauth_of _ _ _, rfl⟩, fun a b => ⟨rfl, rfl, rfl, rfl, rfl⟩,
    fun a b c ha hb hc => ⟨(auth_message a b c).1, _, (auth_message a b c).2, by simp [ha, hb, hc]⟩, by simp [pendOf], rfl, by decide, rfl, by decide, rfl⟩
  rcases hf with rfl | rfl <;> simp [badFrame, frameOf, tagged, nbit] <;> omega

theorem witness_Management :
    (managedPart (sessionOf 2)).managed = true ∧ (∃ r, odRow 0x6020 1 = some r ∧ 255 < 256 ^ r.octets) ∧
    (143 ∉ up.fuse.absent ∧ up.pst ≤ 1 ∧ up.powered = true ∧ (up.core 143).prog = none ∧ ((up.core 143).hostSticky 0x0080 0).isNone = true) ∧
    (((part prog (coreOf 0 [])).core 0).prog = some 1 ∧ prog.running = true ∧ (((part prog (coreOf 0 [])).core 0).hostSticky 0x0080 0).isNone = true) ∧
    (managedPart (sessionOf 1)).operatorOf 9 = true ∧ (managedPart (sessionOf 1)).txn = none ∧
    up.lockedRefused = false ∧ (managedPart (sessionOf 2)).ownerOf 9 = true ∧ (managedPart (sessionOf 1)).ownerOf 9 = false ∧
    (let s := managedPart (sessionOf 2)
     s.val 0x8000 8 + 1024 ≤ slotSize ∧ s.val 0x8000 8 % 1024 = 0 ∧ s.slotRuns s.otherSlot = false ∧ (s.ctrl (!s.offLeads)).state = 1 ∧ s.tokenOk = true ∧
       { s with time := 2000000000 }.mayClaim (!s.offLeads) = true ∧ s.near.state = 1 ∧ s.off.state = 1 ∧ s.near.svn = s.off.svn) ∧
    (let s := { managedPart (sessionOf 2) with flash := ⟨[(slotBase 0 + 13, 0)]⟩ }
     s.revokeStatus 3 = stOk) := by
  refine ⟨by decide, ⟨_, rfl, by decide⟩, by decide, by decide, by decide, by decide, by decide, by decide, by decide, by decide, by decide⟩

/-- A part in operation whose controllers hold these. -/
def withCtrls (n o : Ctrl) : State := { up with near := n, off := o }

theorem witness_Controllers :
    State.reset.pins.held &&& 8 = 0 ∧ (State.reset.ctrl true).state = 0 ∧ State.reset.slew = 0 ∧ (State.reset.ctrl true).heldTo < 2 ^ 64 ∧
    (let s := withCtrls { up.near with bit := false } { up.off with bit := false }
     (s.ctrl false).state = 1 ∧ s.primary = 2 ∧ s.slew = 0 ∧ s.pins.held &&& 8 = 0) ∧
    up.near.state = 1 ∧ up.off.state = 1 ∧ up.managed = true ∧ 1000000 * max (up.time / 1000000) (up.beatMs + 1) < 2 ^ 64 ∧
    (let s := withCtrls up.near { up.off with misses := 3 }
     s.primaryLost = true ∧ s.tokenOk = true ∧ s.mayClaim (!s.offLeads) = false ∧ { s with time := 2000000000 }.mayClaim (!s.offLeads) = true ∧ s.powered = true) ∧
    up.primaryLost = false ∧ (withCtrls { up.near with misses := 3 } up.off).standbyLost = true ∧ up.standbyLost = false ∧
    up.pins.resetN = true ∧ State.reset.pins.resetN = false := by
  decide

/-! ### Worked examples of the spec -/

/-- The edges of N9 in spec/02_nonets_and_formats.md. -/
theorem test_n9_edges : toFmt .n36 .n9 .near (.fin false 125 2) = (0x0FF, nfNone) ∧ toFmt .n36 .n9 .near (.fin false 63 3) = (0x0FF, nfOvf) ∧
    toFmt .n36 .n9 .near (.fin true 245 1) = (0x1FE, nfOvf) := by decide

/-- −7.5 into I9 gives −8, 0x1F8 (spec/02_nonets_and_formats.md). -/
theorem test_i9_tie : toFmt .n36 .i9 .near (.fin true 15 (-1)) = (0x1F8, nfNone) := by decide

/-- 3.25 in N9 and N9e, and the N18 word of the example, read back (spec/02_nonets_and_formats.md). -/
theorem test_decode_examples : (decodeFl .n9 0x08A).eqv (.fin false 13 (-2)) = true ∧ (decodeFl .n9e 0x085).eqv (.fin false 13 (-2)) = true ∧
    (decodeFl .n18 0x10533).eqv (.fin false 3379 (-10)) = true := by decide

/-- Element (37, 100) of tile 1 of a skewed N9 handle lies at handle offset 35,628 (spec/09_scratchpad_and_memory.md). -/
theorem test_skew : skewOff 1 1 37 100 = 35628 ∧ bankOf (147456 + 35628) = 0 := by decide

/-- Top 5, low −21, cur 2: FMT 1 with SCALE −10 (spec/08_training.md). -/
theorem test_select : selectFmt 2 1 1 ⟨true, false, true, 5, -21⟩ = some (1, -10) := by decide

/-- 1,400 W are 2,867 tokens, 1,200 W and 1,300 W less 900 are 1,557 and 1,762 (spec/18_clocks_power_reset.md, spec/19_object_dictionary.md). -/
theorem test_tokens : budgetTokens 1400 = 2867 ∧ budgetTokens 1200 - 900 = 1557 ∧ budgetTokens 1300 - 900 = 1762 := by decide

/-- Chip 0x0123 of 8 × 8 × 8 × 8 × 8 sends to chip 0x4D07 through port 1 (spec/13_fabric.md). -/
theorem test_route :
    State.routePort { up with dict := ⟨[(odKey 0x1010 1 0, 0x123), (odKey 0x1010 2 0, 5), (odKey 0x1010 3 0, 8), (odKey 0x1010 4 0, 8), (odKey 0x1010 5 0, 8),
      (odKey 0x1010 6 0, 8), (odKey 0x1010 7 0, 8)]⟩ } 0x4D07 = some 1 := by decide

/-- The legs of that route: 23 cycles from core 77 to station 1 and 21 from station 8 to core 40, in a chip whose disabled column is none of theirs
(spec/13_fabric.md). -/
theorem test_legs : routeDelay 11 (.ofCore 77) (.station 1) = 23 ∧ routeDelay 11 (.station 8) (.ofCore 40) = 21 := by decide

/-- The delay of that route, every port declaring 240, is 3,522 (spec/13_fabric.md). -/
theorem test_delay : scheduledDelay 11 [8, 8, 8, 8, 8] (fun _ _ => 240) (.ofCore 77) 0x123 0x4D07 40 = 3522 := by decide

/-- The IDCODE of the part that is modelled (R573). -/
theorem test_idcode : Fuse.part.idcode = 0x14E4956B := by decide

/-- Nothing listed reads as zero, and a power-on state lists nothing (R485). -/
theorem test_memory_blank : (State.reset.mem.readNt nearBase).v = 0 ∧ State.reset.mem.wf = true := by decide

end Sys2Proof.Tests
end

section
/-! SUPPORT. The time counter (R6, R432): which operations of the part leave it alone, and how far it moves on in one core cycle. -/

namespace Sys2Proof.Machine

/-- A part of the state that no step of a fold changes is not changed by the fold. -/
theorem State.foldl_proj {β γ : Type} (g : State → γ) (f : State → β → State) (hf : ∀ s x, g (f s x) = g s) (l : List β) (s : State) :
    g (l.foldl f s) = g s := by
  induction l generalizing s with
  | nil => rfl
  | cons x l ih => exact (ih (f s x)).trans (hf s x)

/-! ### Frames that leave for the host (R380, R381) -/

/-- Two states are equal but for the frames that have left for the host: what went out, what waits, and the dictionary, which counts them. -/
def State.sameButSent (s t : State) : Prop := t = { s with dict := t.dict, out := t.out, held := t.held }

theorem State.sameButSent_trans {s t u : State} (h : s.sameButSent t) (g : t.sameButSent u) : s.sameButSent u := by
  unfold State.sameButSent at *
  rw [h] at g
  exact g

theorem State.sameButSent_sendHost (s : State) (q n : Nat) (o : Out) : s.sameButSent (s.sendHost q n o) := by
  unfold State.sendHost
  split <;> rfl

theorem State.sameButSent_freeHeld (s : State) : s.sameButSent s.freeHeld := by
  have sent : ∀ (l : List (Nat × Nat × Out)) (t : State), t.sameButSent (l.foldl (fun t e => t.sendHost e.1 e.2.1 e.2.2) t) := by
    intro l
    induction l with
    | nil => intro t; rfl
    | cons e l ih => intro t; exact State.sameButSent_trans (t.sameButSent_sendHost _ _ _) (ih _)
  exact sent s.held { s with held := [] }

/-! ### What stall cycles leave alone -/

/-- The time counter, with the half nanosecond it does not show. -/
def State.clock (s : State) : Nat × Bool := (s.time, s.half)

@[simp] theorem State.clock_setCore (s : State) (c : Nat) (k : Core) : (s.setCore c k).clock = s.clock := rfl

@[simp] theorem State.clock_setProg (s : State) (n : Nat) (p : Prog) : (s.setProg n p).clock = s.clock := rfl

@[simp] theorem State.clock_countStall (n : Nat) (s : State) (c : Stall) : (s.countStall n c).clock = s.clock := by
  cases c <;> rfl

@[simp] theorem State.clock_gainTokens (n : Nat) (s : State) (l : List Nat) : (s.gainTokens n l).clock = s.clock := by
  unfold State.gainTokens
  split
  · rfl
  · exact State.foldl_proj State.clock _ (fun s c => s.clock_setCore c _) l s

@[simp] theorem State.clock_stallPass (n : Nat) (s : State) (k : Nat) : (s.stallPass n k).clock = s.clock := by
  unfold State.stallPass
  split
  · rfl
  · split
    · rw [State.clock_gainTokens, State.foldl_proj State.clock _ (State.clock_countStall n), State.clock_setProg]
    · split
      · rw [State.clock_gainTokens, State.clock_setProg]
      · rfl

/-! ### One core cycle -/

/-- The time counter as it stands 0.5 ns later, where no offset is left for it to slew (R6). -/
def State.clockNext (s : State) : Nat × Bool := ((s.time + b2n s.half) % 2 ^ 64, !s.half)

theorem State.time_passNs_of_slew_zero (s : State) (n : Nat) (h : s.slew = 0) : (s.passNs n).time = (s.time + n) % 2 ^ 64 := by
  simp [State.passNs, h]

/-- The half nanoseconds of one more core cycle: a whole one is full where a half one stood, and a half one stands where none did. -/
theorem halfNs_succ (b : Bool) : (b2n b + 1) / 2 = b2n b ∧ ((b2n b + 1) % 2 == 1) = !b := by
  cases b <;> decide

theorem State.clock_halfNs (s : State) (h : s.slew = 0) :
    ({ s.passNs ((b2n s.half + 1) / 2) with half := (b2n s.half + 1) % 2 == 1 } : State).clock = s.clockNext := by
  obtain ⟨whole, part⟩ := halfNs_succ s.half
  rw [whole, part]
  exact congrArg (·, !s.half) (s.time_passNs_of_slew_zero _ h)

theorem State.clock_addCycles_one (s : State) (h : s.slew = 0) : (s.addCycles 1).clock = s.clockNext := by
  unfold State.addCycles
  rw [State.foldl_proj State.clock _ (State.clock_stallPass 1)]
  exact s.clock_halfNs h

theorem State.waits_of_no_progs (s : State) (h : s.progs.entries = []) : s.waits = false := by
  simp [State.waits, h]

theorem State.runAll_of_no_progs (s : State) (h : s.progs.entries = []) : s.runAll = s := by
  simp [State.runAll, h]

theorem State.addCycles_of_no_progs (s : State) (n : Nat) (h : s.progs.entries = []) : (s.addCycles n).progs.entries = [] := by
  simp [State.addCycles, State.passNs, h]

/-- No instruction holds time up where no program is loaded, or where the part is not in operation. -/
theorem State.clock_tick (s : State) (idle : s.live = false ∨ s.progs.entries = []) (power : s.pins.held &&& 8 = 0) (slewed : s.slew = 0) :
    s.tick.clock = s.clockNext := by
  have sent := s.sameButSent_freeHeld
  unfold State.tick
  generalize s.freeHeld = u at sent
  have same : u.live = s.live ∧ u.progs = s.progs ∧ u.pins = s.pins ∧ u.slew = s.slew ∧ u.clockNext = s.clockNext := by
    rw [sent]
    exact ⟨rfl, rfl, rfl, rfl, rfl⟩
  obtain ⟨live, progs, pins, slew, later⟩ := same
  rw [← live, ← progs] at idle
  rw [← pins] at power
  rw [← slew] at slewed
  rw [← later]
  simp only [power, bne_self_eq_false, Bool.false_eq_true, if_false]
  by_cases hl : u.live = true
  · have unloaded : u.progs.entries = [] := idle.resolve_left (by simp [hl])
    have goesOn := State.runAll_of_no_progs _ (u.addCycles_of_no_progs 1 unloaded)
    simp only [hl, if_true, u.waits_of_no_progs unloaded, Bool.false_eq_true, if_false, goesOn]
    exact u.clock_addCycles_one slewed
  · rw [if_neg hl]
    split
    · exact u.clock_addCycles_one slewed
    · exact u.clock_halfNs slewed

/-- A step on an empty queue is one core cycle (log 7). -/
theorem step_of_empty_queue (s : State) (h : s.pending = []) : step s = .next s.tick := by
  simp [step, h]

end Sys2Proof.Machine
end

section
/-! The statements of spec/00_scope.md. -/

open Sys2Proof Sys2Proof.Machine

/-- Settles O2: the step is `State.tick`, which leaves the queue alone, and frames that leave for the host do not touch what the tick asks of the
part. -/
theorem stepIdles : Obligations.StepIdles := by
  intro s empty
  refine ⟨s.tick, step_of_empty_queue s empty, s.tick_keeps.1.trans empty, fun idle power slewed => ?_⟩
  exact Prod.ext_iff.mp (s.clock_tick idle power slewed)

end

section
/-! SUPPORT. Nonets in words (R5, R14): what one nonet of a value, of a merged word and of a run of words in memory reads. -/

namespace Sys2Proof.Machine

/-! ### Nonets of a value -/

@[simp] theorem length_toNonets (k v : Nat) : (toNonets k v).length = k := by
  induction k generalizing v with
  | zero => rfl
  | succ k ih => simp [toNonets, ih]

/-- Nonet `i` of a value, beside the others that `toNonets` lists. -/
theorem getElem?_toNonets (k v i : Nat) : (toNonets k v)[i]? = if i < k then some (BitVec.ofNat 9 (v / 512 ^ i)) else none := by
  induction k generalizing v i with
  | zero => simp [toNonets]
  | succ k ih =>
    cases i with
    | zero => simp [toNonets]
    | succ i => simp [toNonets, ih, Nat.pow_succ', Nat.div_div_eq_div_mul]

theorem ofNonets_lt (l : List Nonet) : ofNonets l < 512 ^ l.length := by
  induction l with
  | nil => simp [ofNonets]
  | cons n l ih =>
    have := n.isLt
    simp only [ofNonets, List.length_cons, Nat.pow_succ']
    omega

/-- The nonets of a value that was put together from nonets are those nonets (R14). -/
theorem nonet_ofNonets (l : List Nonet) (i : Nat) : BitVec.ofNat 9 (ofNonets l / 512 ^ i) = l.getD i 0 := by
  induction l generalizing i with
  | nil => simp [ofNonets]
  | cons n l ih =>
    have := n.isLt
    cases i with
    | zero =>
      apply BitVec.eq_of_toNat_eq
      simp only [ofNonets, Nat.pow_zero, Nat.div_one, BitVec.toNat_ofNat, List.getD_cons_zero]
      omega
    | succ i =>
      have shift : (n.toNat + 512 * ofNonets l) / 512 = ofNonets l := by omega
      rw [ofNonets, Nat.pow_succ', ← Nat.div_div_eq_div_mul, shift, ih, List.getD_cons_succ]

theorem nonetOf_eq (w : Word) (i : Nat) : nonetOf w i = BitVec.ofNat 9 (w.toNat / 512 ^ i) := by
  rw [nonetOf, Nat.pow_mul]

/-- Nonet `i` of a word, from the eight nonets it was put together from. -/
theorem nonetOf_ofNonets (l : List Nonet) (i : Nat) (h : l.length = 8) : nonetOf (BitVec.ofNat 72 (ofNonets l)) i = l.getD i 0 := by
  have small : ofNonets l < 2 ^ 72 := Nat.lt_of_lt_of_eq (h ▸ ofNonets_lt l) (by decide)
  rw [nonetOf_eq, BitVec.toNat_ofNat, Nat.mod_eq_of_lt small, nonet_ofNonets]

/-! ### A run of nonets laid over what stands -/

/-- What each address reads once a run of nonets at `a` lies over what stood there. -/
def overlay (f : Nat → Nonet) (a : Nat) (data : List PNt) (b : Nat) : Nonet :=
  if a ≤ b ∧ b < a + data.length then (data.getD (b - a) ⟨0, false⟩).v else f b

@[simp] theorem overlay_nil (f : Nat → Nonet) (a : Nat) : overlay f a [] = f := by
  funext b
  exact if_neg fun within => Nat.not_lt.mpr within.1 within.2

/-- Two runs that follow one another are one run. -/
theorem overlay_append (f : Nat → Nonet) (a : Nat) (xs ys : List PNt) :
    overlay (overlay f a xs) (a + xs.length) ys = overlay f a (xs ++ ys) := by
  funext b
  simp only [overlay, List.getD_eq_getElem?_getD, List.length_append]
  by_cases before : b < a + xs.length
  · rw [if_neg (by omega)]
    by_cases inside : a ≤ b
    · rw [if_pos ⟨inside, before⟩, if_pos (by omega), List.getElem?_append_left (by omega)]
    · rw [if_neg (by omega), if_neg (by omega)]
  · by_cases after : a + xs.length + ys.length ≤ b
    · rw [if_neg (by omega), if_neg (by omega), if_neg (by omega)]
    · rw [if_pos (by omega), if_pos (by omega), List.getElem?_append_right (by omega), Nat.sub_add_eq]

/-- A run that is cut in two, the second part laid where the first ends unless it is empty, is the run. -/
theorem overlay_append_take_drop (f : Nat → Nonet) (a b n : Nat) (data : List PNt) (next : n < data.length → b = a + n) :
    overlay (overlay f a (data.take n)) b (data.drop n) = overlay f a data := by
  by_cases more : n < data.length
  · have whole := overlay_append f a (data.take n) (data.drop n)
    rwa [List.length_take_of_le (Nat.le_of_lt more), List.take_append_drop, ← next more] at whole
  · rw [List.drop_eq_nil_of_le (by omega), List.take_of_length_le (by omega), overlay_nil]

/-- Nonets spliced into a list from place `k` lie over the list's own. -/
theorem getD_splice (old : List Nonet) (k i : Nat) (p : List PNt) (fits : k + p.length ≤ old.length) :
    (old.take k ++ p.map (·.v) ++ old.drop (k + p.length)).getD i 0 = overlay (old.getD · 0) k p i := by
  have taken : (old.take k).length = k := List.length_take_of_le (by omega)
  have front : (old.take k ++ p.map (·.v)).length = k + p.length := by rw [List.length_append, taken, List.length_map]
  simp only [overlay, List.getD_eq_getElem?_getD]
  by_cases past : k + p.length ≤ i
  · rw [List.getElem?_append_right (by omega), if_neg (by omega), front, List.getElem?_drop, Nat.add_sub_cancel' past]
  · rw [List.getElem?_append_left (by omega)]
    by_cases inside : k ≤ i
    · have within : i - k < p.length := by omega
      rw [List.getElem?_append_right (by omega), if_pos (by omega), taken, List.getElem?_map, List.getElem?_eq_getElem within]
      rfl
    · rw [List.getElem?_append_left (by omega), if_neg (by omega), List.getElem?_take_of_lt (Nat.lt_of_not_le inside)]

/-- Nonets put into a word from nonet `k` lie over the word's own (R237). -/
theorem nonetOf_mergeWord (w : Word) (k i : Nat) (p : List PNt) (fits : k + p.length ≤ 8) (hi : i < 8) :
    nonetOf (mergeWord w k p) i = overlay (nonetOf w) k p i := by
  have old : (toNonets 8 w.toNat).getD i 0 = nonetOf w i := by
    rw [List.getD_eq_getElem?_getD, getElem?_toNonets, if_pos hi, nonetOf_eq, Option.getD_some]
  unfold mergeWord
  have whole : ((toNonets 8 w.toNat).take k ++ p.map (·.v) ++ (toNonets 8 w.toNat).drop (k + p.length)).length = 8 := by
    simp only [List.length_append, List.length_take, List.length_map, List.length_drop, length_toNonets]
    omega
  rw [nonetOf_ofNonets _ i whole, getD_splice _ _ _ _ (by rwa [length_toNonets])]
  exact congrArg (ite _ _) old

/-! ### Words of memory, read by the nonet -/

/-- The nonet at an address, in a store of words keyed by address ÷ 8. -/
def nonetAt (ws : SMap Word) (b : Nat) : Nonet := nonetOf (ws.get 0 (b / 8)) (b % 8)

/-- Merge one piece of a run into its word. -/
def mergePiece (ws : SMap Word) (p : Nat × Nat × List PNt) : SMap Word := ws.write 0 p.1 (mergeWord (ws.get 0 p.1) p.2.1 p.2.2)

theorem nonetAt_mergePiece (ws : SMap Word) (q k : Nat) (p : List PNt) (fits : k + p.length ≤ 8) :
    nonetAt (mergePiece ws (q, k, p)) = overlay (nonetAt ws) (8 * q + k) p := by
  funext b
  unfold nonetAt mergePiece
  rw [SMap.get_write]
  by_cases here : b / 8 = q
  · rw [if_pos here, nonetOf_mergeWord _ _ _ _ fits (Nat.mod_lt _ (by decide)), ← here]
    have offset : b - (8 * (b / 8) + k) = b % 8 - k := by omega
    simp only [overlay, offset]
    exact ite_congr (propext (by omega)) (fun _ => rfl) (fun _ => rfl)
  · rw [if_neg here]
    exact (if_neg (by omega)).symm

/-- Merging the pieces of eight nonets, from word `q + n` on, lays the run over the words. -/
theorem nonetAt_mergeChunks (q fuel n : Nat) (data : List PNt) (ws : SMap Word) (enough : data.length ≤ fuel) :
    nonetAt ((((chunksAux 8 fuel data).zipIdx n).map fun x => (q + x.2, 0, x.1)).foldl mergePiece ws) =
      overlay (nonetAt ws) (8 * (q + n)) data := by
  induction fuel generalizing n data ws with
  | zero =>
    have none : data = [] := List.eq_nil_of_length_eq_zero (by omega)
    simp [none, chunksAux]
  | succ fuel ih =>
    cases data with
    | nil => simp [chunksAux]
    | cons x xs =>
      simp only [List.length_cons] at enough
      simp only [chunksAux, List.zipIdx_cons, List.map_cons, List.foldl_cons]
      rw [ih _ _ _ (by rw [List.length_drop, List.length_cons]; omega), nonetAt_mergePiece _ _ _ _ (by rw [List.length_take]; omega)]
      exact overlay_append_take_drop _ _ _ _ _ (by omega)

/-- Merging the pieces of a run lays the run over the words. -/
theorem nonetAt_mergePieces (ws : SMap Word) (a : Nat) (data : List PNt) :
    nonetAt ((pieces a data).foldl mergePiece ws) = overlay (nonetAt ws) a data := by
  cases data with
  | nil => simp [pieces]
  | cons x xs =>
    have first : 8 * (a / 8) + a % 8 = a := Nat.div_add_mod a 8
    simp only [pieces, chunks, List.isEmpty_cons, Bool.false_eq_true, if_false, List.foldl_cons]
    rw [nonetAt_mergeChunks _ _ _ _ _ (Nat.le_refl _), nonetAt_mergePiece _ _ _ _ (by rw [List.length_take]; omega), first]
    exact overlay_append_take_drop _ _ _ _ _ (by omega)

end Sys2Proof.Machine
end

section
/-! SUPPORT. Near and far memory (R249, R260): what a write leaves in the words, in the marks and in a mirror copy. -/

namespace Sys2Proof.Machine

/-! ### The marks of blocks -/

theorem SMap.get_foldl_write {α : Type} [DecidableEq α] (d : α) (f : Nat → α) (l : List Nat) (m : SMap α) (j : Nat) :
    (l.foldl (fun m b => m.write d b (f b)) m).get d j = if j ∈ l then f j else m.get d j := by
  induction l generalizing m with
  | nil => simp
  | cons b l ih =>
    rw [List.foldl_cons, ih, SMap.get_write]
    by_cases later : j ∈ l
    · simp [later]
    · by_cases here : j = b
      · simp [here]
      · simp [later, here]

theorem mem_blocksOf (a n j : Nat) : j ∈ blocksOf a n ↔ 64 * j < a + n ∧ a < 64 * j + 64 ∧ 0 < n := by
  unfold blocksOf
  by_cases none : n = 0
  · simp [none]
  · rw [if_neg none, List.mem_map]
    constructor
    · rintro ⟨i, hi, rfl⟩
      rw [List.mem_range] at hi
      omega
    · intro h
      exact ⟨j - a / 64, List.mem_range.mpr (by omega), by omega⟩

/-! ### One copy -/

theorem Mem.marks_writeCopy (m : Mem) (a : Nat) (data : List PNt) (j : Nat) :
    (m.writeCopy a data).marks.get false j = if j ∈ blocksOf a data.length then m.markAfter a data j else m.marks.get false j :=
  SMap.get_foldl_write false (m.markAfter a data) _ m.marks j

theorem Mem.readNt_v (m : Mem) (b : Nat) : (m.readNt b).v = nonetAt m.words b := rfl

/-- A write of one copy lays its nonets over what stood. -/
theorem Mem.nonetAt_writeCopy (m : Mem) (a : Nat) (data : List PNt) :
    nonetAt (m.writeCopy a data).words = overlay (nonetAt m.words) a data :=
  nonetAt_mergePieces m.words a data

@[simp] theorem Mem.mirrors_writeCopy (m : Mem) (a : Nat) (data : List PNt) : (m.writeCopy a data).mirrors = m.mirrors := rfl

/-- A block that a write does not touch is poisoned as before. -/
theorem Mem.poisoned_writeCopy_of_untouched (m : Mem) (a b : Nat) (data : List PNt) (h : b / 64 ∉ blocksOf a data.length) :
    (m.writeCopy a data).poisoned b = m.poisoned b := by
  have regions : (m.writeCopy a data).mirrorOf b = m.mirrorOf b := rfl
  rw [Mem.poisoned, Mem.poisoned, Mem.marks_writeCopy, if_neg h, regions]

/-- A write of the whole block decides its mark (R249). -/
theorem Mem.markAfter_of_whole (m : Mem) (a j : Nat) (data : List PNt) (starts : a ≤ 64 * j) (ends : 64 * j + 64 ≤ a + data.length) :
    m.markAfter a data j = anyPoison ((data.drop (64 * j - a)).take 64) := by
  have lo : max a (64 * j) = 64 * j := by omega
  have hi : min (a + data.length) (64 * j + 64) = 64 * j + 64 := by omega
  simp [Mem.markAfter, lo, hi]

/-! ### Both copies -/

/-- The address range of a write lies outside the primary copy of every region in use. -/
def Mem.clearOf (m : Mem) (a n : Nat) : Prop := ∀ r ∈ m.mirrors, r.state ≠ 0 → a + n ≤ r.primary ∨ r.primary + r.size ≤ a

theorem Mem.writeMirror_of_clear (a : Nat) (data : List PNt) (m : Mem) (r : Mirror)
    (h : r.state ≠ 0 → a + data.length ≤ r.primary ∨ r.primary + r.size ≤ a) : Mem.writeMirror a data m r = m := by
  refine if_neg fun c => ?_
  simp only [Bool.and_eq_true, bne_iff_ne, decide_eq_true_eq] at c
  have := h c.1
  omega

/-- A write that meets no mirrored region goes to one copy. -/
theorem Mem.write_of_clear (m : Mem) (a : Nat) (data : List PNt) (h : m.clearOf a data.length) : m.write a data = m.writeCopy a data := by
  unfold Mem.write
  unfold Mem.clearOf at h
  generalize m.mirrors = l at h ⊢
  induction l with
  | nil => rfl
  | cons r l ih =>
    rw [List.foldl_cons, Mem.writeMirror_of_clear _ _ _ _ (h r List.mem_cons_self)]
    exact ih fun r hr => h r (List.mem_cons_of_mem _ hr)

/-- What a write lays into the primary copy of a region in use is laid into its mirror copy (R260). -/
theorem Mem.nonetAt_writeMirror (a b : Nat) (data : List PNt) (m : Mem) (r : Mirror) (used : r.state ≠ 0) (begun : a ≤ b)
    (written : b < a + data.length) (holds : r.primary ≤ b) (within : b < r.primary + r.size) :
    nonetAt (Mem.writeMirror a data m r).words (r.mirror + (b - r.primary)) = (data.getD (b - a) ⟨0, false⟩).v := by
  obtain ⟨lo, hlo⟩ : ∃ lo, max a r.primary = lo := ⟨_, rfl⟩
  obtain ⟨hi, hhi⟩ : ∃ hi, min (a + data.length) (r.primary + r.size) = hi := ⟨_, rfl⟩
  have meets : (r.state != 0 && decide (lo < hi)) = true := by
    rw [Bool.and_eq_true, bne_iff_ne, decide_eq_true_eq]
    exact ⟨used, by omega⟩
  have place : r.mirror + (b - r.primary) - (r.mirror + (lo - r.primary)) = b - lo := by omega
  have source : lo - a + (b - lo) = b - a := by omega
  simp only [Mem.writeMirror, hlo, hhi, meets, if_true, Mem.nonetAt_writeCopy, overlay, place, List.length_take, List.length_drop]
  rw [if_pos (by omega)]
  simp only [List.getD_eq_getElem?_getD, List.getElem?_take_of_lt (show b - lo < hi - lo by omega), List.getElem?_drop, source]

end Sys2Proof.Machine
end

section
/-! The statements of spec/02_nonets_and_formats.md. -/

open Sys2Proof Sys2Proof.Machine

/-- Settles O20: a write that meets no mirrored region is a write of one copy, which lays its nonets over the words and decides the mark of each whole
block; where one region is in use, the part of the write in its primary copy is laid into the mirror copy in the same way. -/
theorem memoryReadsBack : Obligations.MemoryReadsBack := by
  intro m a b data
  refine ⟨fun clear => ?_, fun r only used begun written holds within => ?_⟩
  · rw [m.write_of_clear a data clear]
    refine ⟨?_, fun out => ?_, fun starts ends => ?_⟩
    · rw [Mem.readNt_v, Mem.readNt_v, m.nonetAt_writeCopy]
      rfl
    · refine m.poisoned_writeCopy_of_untouched a b data fun touched => ?_
      rw [mem_blocksOf] at touched
      omega
    · have touched : b / 64 ∈ blocksOf a data.length := (mem_blocksOf _ _ _).mpr (by omega)
      rw [m.marks_writeCopy, if_pos touched, m.markAfter_of_whole a _ data (by omega) (by omega), Nat.mul_comm]
      rfl
  · have once : m.write a data = Mem.writeMirror a data (m.writeCopy a data) r := by simp [Mem.write, only]
    rw [once, Mem.readNt_v]
    exact Mem.nonetAt_writeMirror a b data _ r used begun written holds within

/-- Memory with one region in use: two blocks of far memory and, sixteen blocks on, their mirror copy. -/
def mirroredFar : Mem := { Mem.empty with mirrors := [⟨farBase, farBase + 1024, 128, 1⟩] }

/-- A write of eight nonets that begins four before the second block of that region, to which the clause on mirrored regions applies. -/
theorem mirroredFar_keeps_both_copies (data : List PNt) (eight : data.length = 8) :
    ((mirroredFar.write (farBase + 60) data).readNt (farBase + 1024 + (farBase + 64 - farBase))).v = (data.getD 4 ⟨0, false⟩).v := by
  have fifth : farBase + 64 - (farBase + 60) = 4 := Nat.add_sub_add_left _ _ _
  obtain ⟨-, mirrored⟩ := memoryReadsBack mirroredFar (farBase + 60) (farBase + 64) data
  rw [← fifth]
  exact mirrored ⟨farBase, farBase + 1024, 128, 1⟩ rfl Nat.one_ne_zero (by omega) (by omega) (Nat.le_add_right _ _)
    (Nat.add_lt_add_left (by decide) _)

end

section
/-! SUPPORT. An issued instruction whose effect is in its core alone, and what the operations of the outer-product engine without a stream leave (R114, R122 to R125). -/

namespace Sys2Proof.Machine

/-! ### The core at an issue, and the part after it -/

/-- The end of a wait touches the engines, the flags and the slip records of a core alone (R52, R57, R60, R61). -/
theorem Core.consumeWait_eq (c : Core) (e t : Nat) (w : Word) :
    c.consumeWait e t w =
      { c with engs := (c.consumeWait e t w).engs, coup := (c.consumeWait e t w).coup, st := (c.consumeWait e t w).st } := by
  unfold Core.consumeWait Core.unhold Core.setEng
  simp only
  split <;> split <;> rfl

theorem State.issueCore_eq (s : State) (c e : Nat) (w : Word) :
    s.issueCore c e w =
      let k := s.issueCore c e w
      { s.core c with
        now := k.now, te := { (s.core c).te with regs := k.te.regs }, engs := k.engs, coup := k.coup, st := k.st, nextTid := k.nextTid } := by
  unfold State.issueCore
  rw [Core.consumeWait_eq, Core.advance_eq]

@[simp] theorem State.issueCore_ope (s : State) (c e : Nat) (w : Word) : (s.issueCore c e w).ope = (s.core c).ope := by
  rw [s.issueCore_eq]

@[simp] theorem State.issueCore_profile (s : State) (c e : Nat) (w : Word) : (s.issueCore c e w).profile = (s.core c).profile := by
  rw [s.issueCore_eq]

@[simp] theorem State.issueCore_pipeBusy (s : State) (c e t : Nat) (w : Word) : (s.issueCore c e w).pipeBusy t = (s.core c).pipeBusy t := by
  rw [s.issueCore_eq]
  rfl

@[simp] theorem State.issueCore_insidePair (s : State) (c e t : Nat) (w : Word) :
    (s.issueCore c e w).insidePair t = (s.core c).insidePair t := by
  rw [s.issueCore_eq]
  rfl

/-- An operation that passes its checks, has no effect outside its core, and leaves the OPE as `o` and everything else of the core as it was,
is taken over so: beside the OPE, the engines, the list of what is in flight and the cycle up to which there is work have moved. -/
theorem worked_of_ope (s : State) (c eng : Nat) (w : Word) (h : s.Head c eng w) (body : Env → Iss → Cx → OpRes) (o : Ope)
    (passes : (s.opHere c eng w body).errs = [])
    (leaves : (s.opHere c eng w body).x = ⟨{ s.issueCore c eng w with ope := o }, s.mem, [], false⟩) :
    ∃ k : Core, s.worked c k (issueOn s c eng w body) ∧ k.ope = o ∧
      k = { s.issueCore c eng w with engs := k.engs, infl := k.infl, busyTo := k.busyTo, ope := o } := by
  obtain ⟨y, next, mem, effs, core, -⟩ := issues_of s c eng w h body passes
  rw [leaves] at mem effs core
  obtain ⟨-, prog, net, me, -⟩ := issueCore_sregs s c eng w
  have netY : y.c.te.net = (s.core c).te.net := by rw [core]; exact net
  have meY : y.c.me = (s.core c).me := by rw [core]; exact me
  have progY : y.c.prog = (s.core c).prog := by rw [core]; exact prog
  refine ⟨y.c, ?_, by rw [core], core⟩
  rw [next]
  refine take_worked s c y y.c rfl mem effs ?_ ?_
  · rw [netY, goesOff_me s _ _ meY]
    exact h.calm
  · rw [progY]
    exact h.kept

/-! ### Descriptors, the shadow set and the exchange of sets -/

theorem Ope.desc_write (o : Ope) (n m : Nat) (d : Desc) :
    ({ o with descs := o.descs.write .reset n d } : Ope).desc m = if m = n then d else o.desc m :=
  SMap.get_write o.descs .reset n m d

@[simp] theorem AccSet.get_zero (cell : Nat) : AccSet.zero.get cell = .zero := rfl

/-- The OPE after a swap in cycle `t`: the sets exchanged, and with DRN the drain of the new shadow set begun (R122, R124). -/
def Ope.swapped (o : Ope) (drn clr : Bool) (t profile ctx pc : Nat) : Ope :=
  if drn then o.exchange.startDrain t profile clr ctx pc else o.exchange

theorem Ope.swapped_eq (o : Ope) (drn clr : Bool) (t profile ctx pc : Nat) :
    let o' := o.swapped drn clr t profile ctx pc
    o' = { o with live := o.shadow, shadow := o.live, drain := o'.drain, busyFrom := o'.busyFrom, busyTo := o'.busyTo } := by
  cases drn <;> rfl

theorem Ope.drain_swapped (o : Ope) (drn clr : Bool) (t profile ctx pc : Nat) :
    (o.swapped drn clr t profile ctx pc).drain = if drn then some ⟨t + drainLatency profile - 1, clr, [], 0, ctx, pc⟩ else o.drain := by
  cases drn <;> rfl

/-- A shadow pipe that is free of pending drains too is free of its own work (R127). -/
theorem Core.busy_of_pipeBusy (c : Core) (t : Nat) (free : c.pipeBusy t = false) : c.ope.busy t = false :=
  (Bool.or_eq_false_iff.mp free).1

theorem Cx.swap_of_free (x : Cx) (t : Nat) (drn clr : Bool) (ctx pc : Nat) (free : x.c.ope.busy t = false) :
    x.swap t drn clr ctx pc = { x with c := { x.c with ope := x.c.ope.swapped drn clr t x.c.profile ctx pc } } := by
  simp [Cx.swap, Ope.swapped, free]

theorem opOclr_of_free (i : Iss) (x : Cx) (free : x.c.pipeBusy i.t = false) :
    opOclr i x = .now i { x with c := { x.c with ope := { x.c.ope with shadow := .zero, busyFrom := i.t, busyTo := i.t } } } := by
  simp [opOclr, free]

theorem opSwap_of_free (drn clr last : Bool) (i : Iss) (x : Cx) (free : x.c.pipeBusy i.t = false) (outside : x.c.insidePair i.t = false) :
    ∃ due, opSwap drn clr last i x =
      .at_ { x with c := { x.c with ope := x.c.ope.swapped drn clr i.t x.c.profile i.ctx i.pc } } due := by
  refine ⟨if drn then (if last then i.t + drainLatency x.c.profile - 1 + 143 else i.t + drainLatency x.c.profile - 1) else i.t, ?_⟩
  rw [← x.swap_of_free i.t drn clr i.ctx i.pc (x.c.busy_of_pipeBusy i.t free)]
  simp [opSwap, free, outside]

/-! ### OSET, SWAP and OCLR at the head of the OPE -/

theorem exec_oset_worked (s : State) (c : Nat) (ctl : Ctl) (n : BitVec 3) (h : BitVec 6) (orient turn half : Bool) (start : BitVec 16)
    (head : s.Head c 2 (wordOset ctl n h orient turn half start)) :
    let o := { (s.core c).ope with descs := (s.core c).ope.descs.write .reset n.toNat ⟨h.toNat, orient, turn, half, start.toNat⟩ }
    ∃ k : Core, s.worked c k (exec (.oset c ctl n h orient turn half start) s) ∧ k.ope = o ∧
      k = { s.issueCore c 2 (wordOset ctl n h orient turn half start) with
        engs := k.engs, infl := k.infl, busyTo := k.busyTo, ope := o } :=
  worked_of_ope s c 2 _ head (fun _ => opOset n.toNat h.toNat orient turn half start.toNat) _ rfl
    (by simp [State.opHere, opOset, OpRes.now])

theorem exec_swap_worked (s : State) (c : Nat) (ctl : Ctl) (drn clr last : Bool) (head : s.Head c 2 (wordSwap ctl drn clr last))
    (free : (s.core c).pipeBusy (s.issueCycle c 2) = false) (outside : (s.core c).insidePair (s.issueCycle c 2) = false) :
    let i := s.issueAs c 2
    let o := (s.core c).ope.swapped drn clr i.t (s.core c).profile i.ctx i.pc
    ∃ k : Core, s.worked c k (exec (.swap c ctl drn clr last) s) ∧ k.ope = o ∧
      k = { s.issueCore c 2 (wordSwap ctl drn clr last) with engs := k.engs, infl := k.infl, busyTo := k.busyTo, ope := o } := by
  obtain ⟨due, res⟩ := opSwap_of_free drn clr last (s.issueAs c 2) ⟨s.issueCore c 2 (wordSwap ctl drn clr last), s.mem, [], false⟩
    ((s.issueCore_pipeBusy ..).trans free) ((s.issueCore_insidePair ..).trans outside)
  rw [s.issueCore_ope, s.issueCore_profile] at res
  exact worked_of_ope s c 2 _ head (fun _ => opSwap drn clr last) _ (congrArg OpRes.errs res) (congrArg OpRes.x res)

theorem exec_oclr_worked (s : State) (c : Nat) (ctl : Ctl) (head : s.Head c 2 (wordOclr ctl))
    (free : (s.core c).pipeBusy (s.issueCycle c 2) = false) :
    let o := { (s.core c).ope with shadow := .zero, busyFrom := s.issueCycle c 2, busyTo := s.issueCycle c 2 }
    ∃ k : Core, s.worked c k (exec (.oclr c ctl) s) ∧ k.ope = o ∧
      k = { s.issueCore c 2 (wordOclr ctl) with engs := k.engs, infl := k.infl, busyTo := k.busyTo, ope := o } := by
  have res := opOclr_of_free (s.issueAs c 2) ⟨s.issueCore c 2 (wordOclr ctl), s.mem, [], false⟩ ((s.issueCore_pipeBusy ..).trans free)
  rw [s.issueCore_ope] at res
  exact worked_of_ope s c 2 _ head (fun _ => opOclr) _ (congrArg OpRes.errs res) (congrArg OpRes.x res)

end Sys2Proof.Machine
end

section
/-! The statements of spec/05_outer_product_engine.md. -/

open Sys2Proof Sys2Proof.Machine

/-- Settles O23: with the shadow pipe free, all that OCLR leaves changed of the OPE is its shadow set and the cycle in which that pipe is busy. -/
theorem clearShadow : Obligations.ClearShadow := by
  intro s c ctl head free
  obtain ⟨k, worked, ope, frame⟩ := exec_oclr_worked s c ctl head free
  refine ⟨k, worked, ?_⟩
  rw [ope]
  exact ⟨fun r j => AccSet.get_zero _, rfl, frame⟩

/-- Settles O24: OSET is one write of the store of descriptors; a SWAP of a free shadow pipe is the exchange of sets, after which DRN decides
whether a drain begins. -/
theorem descriptorsAndSwap : Obligations.DescriptorsAndSwap := by
  intro s c ctl n h orient turn half start drn clr last
  refine ⟨fun head => ?_, fun head free outside => ?_⟩
  · obtain ⟨k, worked, ope, frame⟩ := exec_oset_worked s c ctl n h orient turn half start head
    refine ⟨k, worked, fun m => ?_, ?_⟩
    · rw [ope, Ope.desc_write]
      simp only [BitVec.toNat_inj]
    · rw [ope]
      exact frame
  · obtain ⟨k, worked, ope, frame⟩ := exec_swap_worked s c ctl drn clr last head free outside
    have sets := (s.core c).ope.swapped_eq drn clr (s.issueAs c 2).t (s.core c).profile (s.issueAs c 2).ctx (s.issueAs c 2).pc
    have drain := (s.core c).ope.drain_swapped drn clr (s.issueAs c 2).t (s.core c).profile (s.issueAs c 2).ctx (s.issueAs c 2).pc
    rw [← ope] at sets drain
    refine ⟨k, worked, congrArg Ope.live sets, congrArg Ope.shadow sets, fun on => ?_, fun off => ?_, ?_⟩
    · rw [if_pos on] at drain
      exact ⟨_, drain, rfl, rfl⟩
    · rwa [if_neg (Bool.eq_false_iff.mp off)] at drain
    · rw [← ope, sets] at frame
      exact frame

end

section
/-! SUPPORT. An issued instruction that changes compute engines of its core alone, and what MCFG leaves (R145, R146). -/

namespace Sys2Proof.Machine

/-- An operation that passes its checks, has no effect outside its core, and leaves the OPE, the MVE and the VE as `o`, `m` and `v` and everything
else of the core as it was, is taken over so: beside these, the engines' heads, the list of what is in flight and the cycle up to which there is work
have moved. `worked_of_ope` is the case in which the last two stay. -/
theorem worked_of_compute (s : State) (c eng : Nat) (w : Word) (h : s.Head c eng w) (body : Env → Iss → Cx → OpRes) (o : Ope) (m : Mve) (v : Ve)
    (passes : (s.opHere c eng w body).errs = [])
    (leaves : (s.opHere c eng w body).x = ⟨{ s.issueCore c eng w with ope := o, mve := m, ve := v }, s.mem, [], false⟩) :
    ∃ k : Core, s.worked c k (issueOn s c eng w body) ∧
      k = { s.issueCore c eng w with engs := k.engs, infl := k.infl, busyTo := k.busyTo, ope := o, mve := m, ve := v } := by
  obtain ⟨-, prog, net, me, -⟩ := issueCore_sregs s c eng w
  obtain ⟨y, next, mem, effs, core, -⟩ := issues_of s c eng w h body passes
  rw [leaves] at mem effs core
  have progY : y.c.prog = (s.core c).prog := by rw [core, ← prog]
  have netY : y.c.te.net = (s.core c).te.net := by rw [core, ← net]
  have meY : y.c.me = (s.core c).me := by rw [core, ← me]
  refine ⟨y.c, ?_, core⟩
  rw [next]
  refine take_worked s c y y.c rfl mem effs ?_ ?_
  · rw [netY, goesOff_me s _ _ meY]
    exact h.calm
  · rw [progY]
    exact h.kept

@[simp] theorem State.issueCore_mve (s : State) (c e : Nat) (w : Word) : (s.issueCore c e w).mve = (s.core c).mve := by
  rw [s.issueCore_eq]

/-! ### The fields of MCFG (R146) -/

/-- The two's-complement reading of a field is the signed value of its bits (R22). -/
theorem sgn_toNat {n : Nat} (b : BitVec (n + 1)) : sgn (n + 1) b.toNat = b.toInt := by
  have half : 2 ^ (n + 1) = 2 * 2 ^ n := Nat.pow_succ'
  unfold sgn
  rw [Nat.mod_eq_of_lt b.isLt, BitVec.toInt_eq_toNat_cond, Nat.add_sub_cancel]
  exact ite_congr (propext (by omega)) (fun _ => rfl) (fun _ => rfl)

/-- The weight format of a legal FMT field, code by code (R146). -/
theorem mcfgFmt_toNat (fmt : BitVec 2) : mcfgFmt fmt.toNat = if fmt = 0 then .n9 else if fmt = 1 then .n9e else .n18 := by
  revert fmt
  decide

/-- LANES above 95 are taken as 95 (R146). -/
theorem lanes_capped (lanes : Nat) : min lanes 95 + 1 = if 95 < lanes then 96 else lanes + 1 := by
  split <;> omega

/-- The stream configuration that the fields of MCFG give (R146). -/
def MCfg.ofFields (fmt : BitVec 2) (scale : BitVec 9) (lanes : BitVec 7) (estart : BitVec 12) : MCfg :=
  ⟨if fmt = 0 then .n9 else if fmt = 1 then .n9e else .n18, scale.toInt, if 95 < lanes.toNat then 96 else lanes.toNat + 1, estart.toNat⟩

/-- FMT 3 is the illegal operand of MCFG, and the only one (R145). -/
theorem opMcfg_errs (fmt scale lanes estart : Nat) (i : Iss) (x : Cx) :
    (opMcfg fmt scale lanes estart i x).errs = if fmt = 3 then [.illegalMve] else [] := by
  unfold opMcfg
  split <;> rfl

/-- A legal MCFG writes the stream configuration and leaves the rest of the core (R146). -/
theorem opMcfg_x_of_legal (fmt : BitVec 2) (scale : BitVec 9) (lanes : BitVec 7) (estart : BitVec 12) (legal : fmt.toNat ≠ 3) (i : Iss) (x : Cx) :
    (opMcfg fmt.toNat scale.toNat lanes.toNat estart.toNat i x).x =
      { x with c := { x.c with mve := { x.c.mve with cfg := .ofFields fmt scale lanes estart } } } := by
  unfold opMcfg MCfg.ofFields
  rw [if_neg legal, mcfgFmt_toNat, sgn_toNat, lanes_capped]
  rfl

theorem exec_mcfg_worked (s : State) (c : Nat) (ctl : Ctl) (fmt : BitVec 2) (scale : BitVec 9) (lanes : BitVec 7) (estart : BitVec 12)
    (head : s.Head c 3 (wordMcfg ctl fmt scale lanes estart)) (legal : fmt ≠ 3) :
    ∃ k : Core, s.worked c k (exec (.mcfg c ctl fmt scale lanes estart) s) ∧
      k = { s.issueCore c 3 (wordMcfg ctl fmt scale lanes estart) with
        engs := k.engs, infl := k.infl, busyTo := k.busyTo
        mve := { (s.core c).mve with cfg := .ofFields fmt scale lanes estart } } := by
  have code : fmt.toNat ≠ 3 := fun three => legal (BitVec.eq_of_toNat_eq three)
  refine worked_of_compute s c 3 _ head (fun _ => opMcfg fmt.toNat scale.toNat lanes.toNat estart.toNat) _ _ _ ?_ ?_
  · exact (opMcfg_errs ..).trans (if_neg code)
  · rw [← s.issueCore_mve c 3 (wordMcfg ctl fmt scale lanes estart)]
    exact opMcfg_x_of_legal fmt scale lanes estart code _ _

end Sys2Proof.Machine
end

section
/-! The statements of spec/06_matrix_vector_engine.md. -/

open Sys2Proof Sys2Proof.Machine

/-- Settles O27: a legal MCFG leaves its core as the issue finds it but for the stream configuration, which is the one its fields give. -/
theorem streamConfiguration : Obligations.StreamConfiguration := by
  intro s c ctl fmt scale lanes estart head legal
  obtain ⟨k, worked, frame⟩ := exec_mcfg_worked s c ctl fmt scale lanes estart head legal
  have cfg : k.mve.cfg = .ofFields fmt scale lanes estart := by rw [frame]
  refine ⟨k, worked, ?_⟩
  rw [cfg]
  exact ⟨rfl, rfl, rfl, rfl, frame⟩

end

section
/-! SUPPORT. An issued instruction that leaves its core's program, its frames on their way and its ME alone, and what VCFG, VPTR and SCLR leave (R171, R172, R188). -/

namespace Sys2Proof.Machine

/-- An operation that passes its checks, has no effect outside its core, and leaves that core as `k'`, with its program, what it has on the fabric
and its ME as they were, is taken over so: beside `k'` only the engines' heads, the list of what is in flight and the cycle up to which there is
work have moved. `worked_of_compute` is the case in which `k'` differs in compute engines alone. -/
theorem worked_of_core (s : State) (c eng : Nat) (w : Word) (h : s.Head c eng w) (body : Env → Iss → Cx → OpRes) (k' : Core)
    (passes : (s.opHere c eng w body).errs = []) (leaves : (s.opHere c eng w body).x = ⟨k', s.mem, [], false⟩)
    (prog : k'.prog = (s.core c).prog) (net : k'.te.net = (s.core c).te.net) (me : k'.me = (s.core c).me) :
    ∃ k : Core, s.worked c k (issueOn s c eng w body) ∧ k = { k' with engs := k.engs, infl := k.infl, busyTo := k.busyTo } := by
  obtain ⟨y, next, mem, effs, core, -⟩ := issues_of s c eng w h body passes
  rw [leaves] at mem effs core
  have progY : y.c.prog = (s.core c).prog := by rw [core, ← prog]
  have netY : y.c.te.net = (s.core c).te.net := by rw [core, ← net]
  have meY : y.c.me = (s.core c).me := by rw [core, ← me]
  refine ⟨y.c, ?_, core⟩
  rw [next]
  refine take_worked s c y y.c rfl mem effs ?_ ?_
  · rw [netY, goesOff_me s _ _ meY]
    exact h.calm
  · rw [progY]
    exact h.kept

@[simp] theorem State.issueCore_ve (s : State) (c e : Nat) (w : Word) : (s.issueCore c e w).ve = (s.core c).ve := by
  rw [s.issueCore_eq]

/-! ### VCFG (R171) -/

/-- The configuration that the fields of VCFG give for a count of `n` elements, of which one stands where there are none (R171). -/
def VCfg.ofFields (fmt : BitVec 2) (rnd msk : Bool) (mslot : BitVec 11) (n : Nat) (seg : BitVec 12) : VCfg :=
  ⟨vFmt fmt.toNat, rnd, msk, mslot.toNat, if n = 0 then 1 else n, seg.toNat + 1, n == 0⟩

/-- A VCFG that counts by LCNT from a VCNT without poison, or by LEN, writes the configuration and leaves the rest of the core (R171). -/
theorem opVcfg_of_unpoisoned (fmt : BitVec 2) (rnd msk : Bool) (mslot : BitVec 11) (len : Nat) (lcnt : Bool) (seg : BitVec 12) (i : Iss) (x : Cx)
    (sound : lcnt = true → x.c.ve.vcntP = false) :
    opVcfg fmt.toNat rnd msk mslot.toNat len lcnt seg.toNat i x =
      .now i { x with c := { x.c with ve := { x.c.ve with
        cfg := .ofFields fmt rnd msk mslot (if lcnt then x.c.ve.vcnt else len) seg } } } := by
  have unpoisoned : ¬(lcnt && x.c.ve.vcntP) = true := by cases lcnt <;> simp_all
  have atLeastOne (n : Nat) : max n 1 = if n = 0 then 1 else n := by split <;> omega
  unfold VCfg.ofFields
  rw [← atLeastOne]
  exact if_neg unpoisoned

theorem exec_vcfg_worked (s : State) (c : Nat) (ctl : Ctl) (fmt : BitVec 2) (rnd msk : Bool) (mslot : BitVec 11) (len : BitVec 16) (lcnt : Bool)
    (seg : BitVec 12) (head : s.Head c 4 (wordVcfg ctl fmt rnd msk mslot len lcnt seg)) (sound : lcnt = true → (s.core c).ve.vcntP = false) :
    let v := (s.core c).ve
    ∃ k : Core, s.worked c k (exec (.vcfg c ctl fmt rnd msk mslot len lcnt seg) s) ∧
      k = { s.issueCore c 4 (wordVcfg ctl fmt rnd msk mslot len lcnt seg) with
        engs := k.engs, infl := k.infl, busyTo := k.busyTo
        ve := { v with cfg := .ofFields fmt rnd msk mslot (if lcnt then v.vcnt else len.toNat) seg } } := by
  have res := opVcfg_of_unpoisoned fmt rnd msk mslot len.toNat lcnt seg (s.issueAs c 4)
    ⟨s.issueCore c 4 (wordVcfg ctl fmt rnd msk mslot len lcnt seg), s.mem, [], false⟩ (by simpa using sound)
  rw [s.issueCore_ve] at res
  exact worked_of_compute s c 4 _ head (fun _ => opVcfg fmt.toNat rnd msk mslot.toNat len.toNat lcnt seg.toNat) _ _ _
    (congrArg OpRes.errs res) (congrArg OpRes.x res)

/-! ### VPTR and its registers in the control block (R172) -/

/-- The pointer registers stand from 0x0D40 on in the control block, eight nonets apart (R172). -/
theorem Core.ctlRead_ptr (k : Core) (p : BitVec 3) : k.ctlRead (0x0D40 + 8 * p.toNat) = (k.ve.ptrs.get .reset p.toNat).word := by
  have inside : 0x0D40 ≤ 0x0D40 + 8 * p.toNat ∧ 0x0D40 + 8 * p.toNat < 0x0D80 := by omega
  have register : (0x0D40 + 8 * p.toNat - 0x0D40) / 8 = p.toNat := by omega
  have middle : k.ctlRead (0x0D40 + 8 * p.toNat) = k.ctlMid (0x0D40 + 8 * p.toNat) := by
    unfold Core.ctlRead
    rw [if_neg (by omega), if_pos (by omega)]
  rw [middle]
  unfold Core.ctlMid
  rw [if_neg (by omega), if_neg (by omega), if_neg (by omega), if_pos (by simpa using inside), register]

theorem VPtr.word_eq (p : VPtr) : p.word = BitVec.ofNat 72 (p.h * 2 ^ 24 + b2n p.orient * 2 ^ 23 + p.off) := by
  simp [VPtr.word, packWord]

theorem exec_vptr_worked (s : State) (c : Nat) (ctl : Ctl) (p : BitVec 3) (h : BitVec 6) (orient : Bool) (off : BitVec 23)
    (head : s.Head c 4 (wordVptr ctl p h orient off)) :
    let v := (s.core c).ve
    ∃ k : Core, s.worked c k (exec (.vptr c ctl p h orient off) s) ∧
      k = { s.issueCore c 4 (wordVptr ctl p h orient off) with
        engs := k.engs, infl := k.infl, busyTo := k.busyTo
        ve := { v with ptrs := v.ptrs.write .reset p.toNat ⟨h.toNat, orient, off.toNat⟩ } } := by
  refine worked_of_compute s c 4 _ head (fun _ => opVptr p.toNat h.toNat orient off.toNat) _ _ _ rfl ?_
  rw [← s.issueCore_ve c 4 (wordVptr ctl p h orient off)]
  rfl

/-! ### SCLR (R188) -/

/-- SCLR leaves its whole effect to the end of its issue cycle (R188). -/
theorem opSclr_eq (sb : Nat) (base : BitVec 9) (i : Iss) (x : Cx) :
    opSclr sb base.toNat i x = .now i { x with c := { x.c with pend := x.c.pend ++ [⟨i.t, i, .sclr sb base.toInt⟩] } } := by
  rw [opSclr, sgn_toNat, Core.pendWr]

/-- The issue of an SCLR, said of any word `w`: with the word of its encoding in place, the kernel would reduce the encoding too. -/
theorem issueOn_sclr_worked (s : State) (c : Nat) (w : Word) (sb : BitVec 4) (base : BitVec 9) (head : s.Head c 4 w) :
    ∃ k : Core, s.worked c k (issueOn s c 4 w fun _ => opSclr sb.toNat base.toNat) ∧
      k = { s.issueCore c 4 w with
        engs := k.engs, infl := k.infl, busyTo := k.busyTo
        pend := (s.core c).pend ++ [⟨s.issueCycle c 4, s.issueAs c 4, .sclr sb.toNat base.toInt⟩] } := by
  obtain ⟨-, prog, net, me, pend⟩ := issueCore_sregs s c 4 w
  have res := opSclr_eq sb.toNat base (s.issueAs c 4) ⟨s.issueCore c 4 w, s.mem, [], false⟩
  rw [pend] at res
  exact worked_of_core s c 4 w head (fun _ => opSclr sb.toNat base.toNat) _ (congrArg OpRes.errs res) (congrArg OpRes.x res) prog net me

/-- When an SCLR's write takes effect, its buffer is a cleared one with the BASE of the instruction, whatever it held (R188). -/
theorem stats_apply_sclr (x : Cx) (env : Env) (t due sb : Nat) (i : Iss) (base : Int) :
    (x.apply env t ⟨due, i, .sclr sb base⟩).c.ve.stats.get .reset sb = { Stats.reset with base := base } :=
  (SMap.get_write ..).trans (if_pos rfl)

end Sys2Proof.Machine
end

section
/-! The statements of spec/07_vector_engine.md. -/

open Sys2Proof Sys2Proof.Machine

/-- Settles O32: VCFG and VPTR each leave the core as the issue finds it but for one write of the VE, the configuration or a pointer register; SCLR
leaves one more effect due in its issue cycle, which clears the buffer. -/
theorem vectorConfiguration : Obligations.VectorConfiguration := by
  intro s c ctl fmt rnd msk mslot len lcnt seg p h orient off sb base
  refine ⟨fun head sound => ?vcfg, fun head => ?vptr, fun head => ?sclr⟩
  case vcfg =>
    obtain ⟨k, worked, frame⟩ := exec_vcfg_worked s c ctl fmt rnd msk mslot len lcnt seg head sound
    have cfg := congrArg (fun k : Core => k.ve.cfg) frame
    refine ⟨k, worked, cfg, ?_⟩
    rw [cfg]
    exact frame
  case vptr =>
    obtain ⟨k, worked, frame⟩ := exec_vptr_worked s c ctl p h orient off head
    have ptrs := congrArg (fun k : Core => k.ve.ptrs) frame
    refine ⟨k, worked, ?_, fun q other => ?_, ?_⟩
    · rw [k.ctlRead_ptr, ptrs, SMap.get_write, if_pos rfl, VPtr.word_eq]
    · rw [k.ctlRead_ptr, Core.ctlRead_ptr, ptrs, SMap.get_write, if_neg (mt BitVec.eq_of_toNat_eq other)]
    · rw [ptrs]
      exact frame
  case sclr =>
    obtain ⟨k, worked, frame⟩ := issueOn_sclr_worked s c _ sb base head
    exact ⟨k, worked, congrArg Core.pend frame, fun x env => stats_apply_sclr x env ..⟩

end

section
/-! SUPPORT. The issue of an instruction of the ME that nothing holds (R42, R52, R318): its wait is consumed before
R318 is asked whether it is held, and where it is not, it issues as an instruction of any other engine does. -/

namespace Sys2Proof.Machine

/-! ### The end of the wait of an ME instruction -/

/-- The end of its wait touches the engines, the flags and the slip records of a core alone (R52, R60). -/
theorem Core.meWait_eq (c : Core) (t : Nat) (w : Word) :
    c.meWait t w = { c with engs := (c.meWait t w).engs, coup := (c.meWait t w).coup, st := (c.meWait t w).st } := by
  unfold Core.meWait
  split
  · rfl
  · exact congrArg (fun k : Core => k.setEng 5 _) (c.consumeWait_eq 5 t w)

/-- The core as an ME instruction at the head finds it once its wait is over, before it issues. -/
def State.waitedCore (s : State) (c : Nat) (w : Word) : Core := ((s.core c).advance (s.issueCycle c 5)).meWait (s.issueCycle c 5) w

theorem State.waitedCore_eq (s : State) (c : Nat) (w : Word) :
    s.waitedCore c w =
      let k := s.waitedCore c w
      { s.core c with now := k.now, te := { (s.core c).te with regs := k.te.regs }, engs := k.engs, coup := k.coup, st := k.st } := by
  unfold State.waitedCore
  rw [Core.meWait_eq, Core.advance_eq]

@[simp] theorem State.waitedCore_me (s : State) (c : Nat) (w : Word) : (s.waitedCore c w).me = (s.core c).me := by
  rw [s.waitedCore_eq]

@[simp] theorem State.waitedCore_sendErrs (s : State) (c : Nat) (w : Word) (env : Env) (role endn areg len : Nat) :
    (s.waitedCore c w).sendErrs env role endn areg len = (s.core c).sendErrs env role endn areg len := by
  rw [s.waitedCore_eq]
  rfl

/-! ### The contexts of an engine whose wait is over -/

@[simp] theorem Engine.here_setCtx_cur (g : Engine) (k : Ctx) : (g.setCtx g.cur k).here = k := g.ctx_setCtx g.cur k

theorem Engine.ctx_setCtx_ne (g : Engine) (x n : Nat) (k : Ctx) (other : n ≠ x) : (g.setCtx x k).ctx n = g.ctx n :=
  SMap.get_put_ne _ _ _ _ _ other

/-- To put back the context in turn leaves every context as it is. -/
theorem Engine.ctx_setCtx_here (g : Engine) (n : Nat) : (g.setCtx g.cur g.here).ctx n = g.ctx n := by
  by_cases turn : n = g.cur
  · rw [turn]
    exact g.ctx_setCtx g.cur g.here
  · exact g.ctx_setCtx_ne g.cur n g.here turn

/-- The engine whose context in turn is held no more (R60). -/
def Engine.unheld (g : Engine) : Engine := { g.setCtx g.cur { g.here with held := none, scheduled := false } with st := .running }

/-- The engine whose context in turn notes that its wait is over (R318). -/
def Engine.noteWaited (g : Engine) : Engine := g.setCtx g.cur { g.here with waited := true }

@[simp] theorem Engine.here_unheld (g : Engine) : g.unheld.here = { g.here with held := none, scheduled := false } := g.here_setCtx_cur _

@[simp] theorem Engine.here_noteWaited (g : Engine) : g.noteWaited.here = { g.here with waited := true } := g.here_setCtx_cur _

/-- The contexts of two engines are equal but for whether the wait of the head is over. -/
def Engine.sameButWaited (g h : Engine) : Prop := ∀ n, h.ctx n = { g.ctx n with waited := (h.ctx n).waited }

theorem Engine.sameButWaited_refl (g : Engine) : g.sameButWaited g := fun _ => rfl

theorem Engine.sameButWaited_noteWaited (g : Engine) : g.sameButWaited g.noteWaited := by
  intro n
  by_cases turn : n = g.cur
  · rw [turn, Engine.noteWaited, Engine.ctx_setCtx]
    rfl
  · rw [Engine.noteWaited, Engine.ctx_setCtx_ne _ _ _ _ turn]

/-- The context in turn of an engine is unheld and has recorded no slip for its head. -/
def Engine.free (g : Engine) : Prop := g.here.held = none ∧ g.here.scheduled = false

theorem Engine.free_unheld (g : Engine) : g.unheld.free :=
  ⟨congrArg Ctx.held g.here_unheld, congrArg Ctx.scheduled g.here_unheld⟩

theorem Engine.free_noteWaited (g : Engine) (free : g.free) : g.noteWaited.free := by
  simpa [Engine.free] using free

/-- A context that is not held is not changed by the end of its hold. -/
theorem Engine.ctx_unheld_of_free (g : Engine) (free : g.free) (n : Nat) : g.unheld.ctx n = g.ctx n := by
  have here : ({ g.here with held := none, scheduled := false } : Ctx) = g.here := by
    rw [← free.1, ← free.2]
  calc g.unheld.ctx n = (g.setCtx g.cur { g.here with held := none, scheduled := false }).ctx n := rfl
    _ = g.ctx n := by rw [here, g.ctx_setCtx_here]

theorem Engine.sameButWaited_unheld_noteWaited (g : Engine) (free : g.free) : g.sameButWaited g.noteWaited.unheld := by
  intro n
  rw [Engine.ctx_unheld_of_free _ (g.free_noteWaited free)]
  exact g.sameButWaited_noteWaited n

/-! ### A wait is consumed once -/

theorem Core.eng_consumeWait (c : Core) (e t : Nat) (w : Word) : (c.consumeWait e t w).eng e = (c.eng e).unheld := by
  unfold Core.consumeWait Core.unhold
  simp only
  split <;> split <;> rw [Core.eng_setEng] <;> rfl

theorem Core.meWait_of_waited (c : Core) (t : Nat) (w : Word) (waited : (c.eng 5).here.waited = true) : c.meWait t w = c := if_pos waited

theorem Core.meWait_of_waiting (c : Core) (t : Nat) (w : Word) (waiting : ¬(c.eng 5).here.waited = true) :
    c.meWait t w = (c.consumeWait 5 t w).setEng 5 ((c.consumeWait 5 t w).eng 5).noteWaited := if_neg waiting

/-- To consume a wait that is over and holds nothing moves the engines alone. -/
theorem Core.consumeWait_of_waited (c : Core) (e t : Nat) (w : Word) (waited : (c.eng e).here.waited = true) (free : (c.eng e).free) :
    c.consumeWait e t w = { c with engs := (c.consumeWait e t w).engs } := by
  simp [Core.consumeWait, Core.unhold, waited, free.1, Core.setEng]

/-- What an ME instruction consumes at its issue, after its wait has been found satisfied, is what any instruction consumes, but that the
context has noted that its wait is over (R52, R318). -/
theorem Core.consumeWait_meWait (c : Core) (t : Nat) (w : Word) :
    ∃ g, (c.meWait t w).consumeWait 5 t w = { c.consumeWait 5 t w with engs := g } ∧
      ((c.consumeWait 5 t w).eng 5).sameButWaited (g.get .reset 5) := by
  by_cases waited : (c.eng 5).here.waited = true
  · exact ⟨_, by rw [c.meWait_of_waited t w waited], Engine.sameButWaited_refl _⟩
  · have free : ((c.consumeWait 5 t w).eng 5).free := by
      rw [c.eng_consumeWait]
      exact Engine.free_unheld _
    rw [c.meWait_of_waiting t w waited]
    generalize c.consumeWait 5 t w = k at free ⊢
    refine ⟨((k.setEng 5 (k.eng 5).noteWaited).consumeWait 5 t w).engs, ?_, ?_⟩
    · rw [Core.consumeWait_of_waited _ 5 t w (by simp) (by simpa using (k.eng 5).free_noteWaited free)]
      rfl
    · change (k.eng 5).sameButWaited (((k.setEng 5 (k.eng 5).noteWaited).consumeWait 5 t w).eng 5)
      rw [Core.eng_consumeWait, Core.eng_setEng]
      exact (k.eng 5).sameButWaited_unheld_noteWaited free

/-- The place of an ME instruction in its engine is the same before its wait is consumed and after it. -/
theorem Core.place_meWait (c : Core) (t : Nat) (w : Word) :
    ((c.meWait t w).eng 5).cur = (c.eng 5).cur ∧ ((c.meWait t w).eng 5).here.pc = (c.eng 5).here.pc := by
  by_cases waited : (c.eng 5).here.waited = true
  · rw [c.meWait_of_waited t w waited]
    exact ⟨rfl, rfl⟩
  · rw [c.meWait_of_waiting t w waited, Core.eng_setEng, c.eng_consumeWait]
    exact ⟨rfl, by simp⟩

/-! ### Operations that read no engine -/

/-- The same work over other engines. -/
def Cx.withEngs (x : Cx) (g : SMap Engine) : Cx := { x with c := { x.c with engs := g } }

/-- The same result over other engines. -/
def OpRes.withEngs (r : OpRes) (g : SMap Engine) : OpRes := { r with x := r.x.withEngs g }

/-- An operation neither reads the engines of its core nor changes them: over other engines it does the same. -/
def EngineBlind (body : Iss → Cx → OpRes) : Prop := ∀ i x g, body i (x.withEngs g) = (body i x).withEngs g

theorem EngineBlind.engs {body : Iss → Cx → OpRes} (blind : EngineBlind body) (i : Iss) (x : Cx) : (body i x).x.c.engs = x.c.engs :=
  congrArg (fun r : OpRes => r.x.c.engs) (blind i x x.c.engs)

/-! ### The core past an issued instruction (R42, R55, R86) -/

/-- The core as an instruction that issued as `i` with result `r` leaves it. -/
def OpRes.left (r : OpRes) (env : Env) (i : Iss) (w : Word) : Core := ((r.x.c.leave env i w r.hold r.after).note i w r).settleHalts

theorem OpRes.left_eq (r : OpRes) (env : Env) (i : Iss) (w : Word) :
    r.left env i w = { r.x.c with engs := (r.left env i w).engs, infl := (r.left env i w).infl, busyTo := (r.left env i w).busyTo } := by
  unfold OpRes.left Core.settleHalts Core.note
  simp only
  split <;> rfl

theorem Core.eng_note (c : Core) (i : Iss) (w : Word) (r : OpRes) (e : Nat) : (c.note i w r).eng e = c.eng e := by
  unfold Core.note Core.eng
  simp only
  split <;> rfl

/-- The instruction's engine has moved past it, and may have come to its halt. -/
theorem OpRes.eng_left (r : OpRes) (env : Env) (i : Iss) (w : Word) :
    ∃ st, (r.left env i w).eng i.eng = { (r.x.c.leave env i w r.hold r.after).eng i.eng with st := st } := by
  obtain ⟨st, settled⟩ := eng_settle ((r.x.c.leave env i w r.hold r.after).note i w r) i.eng
  rw [Core.eng_note] at settled
  exact ⟨st, settled⟩

theorem OpRes.headFree_left (r : OpRes) (env : Env) (i : Iss) (w : Word) : ((r.left env i w).eng i.eng).headFree = i.t + r.hold := by
  obtain ⟨st, moved⟩ := r.eng_left env i w
  rw [moved, Core.leave, Core.eng_setEng]

theorem OpRes.ctx_left (r : OpRes) (env : Env) (i : Iss) (w : Word) :
    ((r.left env i w).eng i.eng).ctx i.ctx =
      { (r.after.getD (((r.x.c.eng i.eng).ctx i.ctx).take w).close).onward with
        begun := env.begunAfter i.eng i.ctx i.pc ((r.x.c.eng i.eng).ctx i.ctx).begun } := by
  obtain ⟨st, moved⟩ := r.eng_left env i w
  rw [moved, Core.leave, Core.eng_setEng]
  exact Engine.ctx_setCtx _ _ _

/-- An instruction that does not complete in its issue cycle is in flight. -/
theorem OpRes.infl_left (r : OpRes) (env : Env) (i : Iss) (w : Word) (later : r.due ≠ some i.t) :
    ⟨i.tid, i.eng, i.ctx, i.pc, r.due, bits w 52 51, bits w 50 45, r.acts⟩ ∈ (r.left env i w).infl := by
  simp [OpRes.left, Core.settleHalts, Core.note, later]

/-- Whether the wait of its head was over is forgotten as a context moves on. -/
theorem Ctx.onward_take_waited (k : Ctx) (w : Word) (b : Bool) :
    (({ k with waited := b }.take w).close).onward = ((k.take w).close).onward := by
  unfold Ctx.take
  simp only
  split <;> rfl

/-! ### The issue -/

/-- The core's work as an ME instruction finds it once its wait is over. -/
def State.waitedCx (s : State) (c : Nat) (w : Word) : Cx := ⟨s.waitedCore c w, s.mem, [], false⟩

/-- An ME that is not blocked has no hold to end. -/
theorem Core.meFree_of_idle (c : Core) (t : Nat) (idle : c.me.bkind = 0) : c.meFree t = c := if_pos idle

theorem issueMe_of (s : State) (c : Nat) (w : Word) (h : s.Head c 5 w) (idle : (s.core c).me.bkind = 0) (ready : Nat → Cx → MeGo)
    (go : ready (s.issueCycle c 5) (s.waitedCx c w) = .go (s.waitedCx c w) (s.issueCycle c 5)) (body : Iss → Cx → OpRes) :
    (Cx.of (s.core c) s.mem).issueMe (s.env c) w ready body = (s.waitedCx c w).issueAt (s.env c) 5 (s.issueCycle c 5) w body := by
  have unblocked : (s.waitedCx c w).c.meFree (s.issueCycle c 5) = (s.waitedCx c w).c :=
    Core.meFree_of_idle _ _ ((congrArg Me.bkind (s.waitedCore_me c w)).trans idle)
  unfold State.waitedCx State.waitedCore at *
  simp only [Cx.issueMe, atHead_of s c 5 w h, go, unblocked]

/-- What the issue of an ME instruction works on is what any instruction at the head works on, over engines in which its context may have noted that
its wait is over. -/
theorem issueAt_waited (s : State) (c : Nat) (w : Word) (h : s.Head c 5 w) (body : Env → Iss → Cx → OpRes) (blind : EngineBlind (body (s.env c)))
    (passes : (s.opHere c 5 w body).errs = []) :
    ∃ g, ((s.issueCore c 5 w).eng 5).sameButWaited (g.get .reset 5) ∧
      (s.waitedCx c w).issueAt (s.env c) 5 (s.issueCycle c 5) w (body (s.env c)) =
        ⟨((s.opHere c 5 w body).withEngs g).left (s.env c) (s.issueAs c 5) w, (s.opHere c 5 w body).x.mem, (s.opHere c 5 w body).x.effs, false⟩ := by
  obtain ⟨g, consumed, same⟩ := ((s.core c).advance (s.issueCycle c 5)).consumeWait_meWait (s.issueCycle c 5) w
  obtain ⟨cur, pc⟩ := ((s.core c).advance (s.issueCycle c 5)).place_meWait (s.issueCycle c 5) w
  have tid : (s.waitedCore c w).nextTid = (s.core c).nextTid := by rw [s.waitedCore_eq]
  have place : (⟨s.issueCycle c 5, (s.waitedCore c w).nextTid, 5, ((s.waitedCore c w).eng 5).cur, ((s.waitedCore c w).eng 5).here.pc⟩ : Iss) =
      s.issueAs c 5 := by
    rw [tid, State.waitedCore, cur, pc, Core.eng_advance, State.issueAs]
  have found : ({ s.waitedCx c w with
        c := { (s.waitedCore c w).consumeWait 5 (s.issueCycle c 5) w with nextTid := (s.waitedCore c w).nextTid + 1 } } : Cx) =
      (⟨s.issueCore c 5 w, s.mem, [], false⟩ : Cx).withEngs g := by
    rw [tid, State.waitedCore, consumed]
    rfl
  have legal : ((s.waitedCore c w).consumeWait 5 (s.issueCycle c 5) w).coup.sigLegal 5 (bits w 52 51) (bits w 50 45) = true := by
    rw [State.waitedCore, consumed]
    exact h.signal
  have sound : ((s.opHere c 5 w body).withEngs g).errs = [] := passes
  have core : (s.waitedCx c w).c = s.waitedCore c w := rfl
  have result : body (s.env c) (s.issueAs c 5) ((⟨s.issueCore c 5 w, s.mem, [], false⟩ : Cx).withEngs g) = (s.opHere c 5 w body).withEngs g :=
    blind _ _ _
  refine ⟨g, same, ?_⟩
  unfold Cx.issueAt
  simp only [core, place, found, result, legal, if_true, sound, List.nil_append, firstErr]
  rfl

/-- The instruction of the ME of core `c` whose word is `w` is at the head of its engine, as `issueOn` says it of the other engines. -/
def issueMeOn (s : State) (c : Nat) (w : Word) (ready : Env → Nat → Cx → MeGo) (body : Env → Iss → Cx → OpRes) : Result :=
  onCore s c fun env x => x.issueMe env w (ready env) (body env)

/-- An ME instruction that is not held issues as any instruction at the head of its engine does (R42, R318), where its operation reads no engine. -/
theorem issuesMe_of (s : State) (c : Nat) (w : Word) (h : s.Head c 5 w) (idle : (s.core c).me.bkind = 0) (ready : Env → Nat → Cx → MeGo)
    (go : ready (s.env c) (s.issueCycle c 5) (s.waitedCx c w) = .go (s.waitedCx c w) (s.issueCycle c 5)) (body : Env → Iss → Cx → OpRes)
    (blind : EngineBlind (body (s.env c))) (passes : (s.opHere c 5 w body).errs = []) :
    s.Issues c 5 w (s.opHere c 5 w body) (issueMeOn s c w ready body) := by
  obtain ⟨g, contexts, issued⟩ := issueAt_waited s c w h body blind passes
  have work := (issueMe_of s c w h idle (ready (s.env c)) go (body (s.env c))).trans issued
  have engs : (s.opHere c 5 w body).x.c.engs = (s.issueCore c 5 w).engs := blind.engs _ _
  have next : issueMeOn s c w ready body =
      .next (s.take c ⟨((s.opHere c 5 w body).withEngs g).left (s.env c) (s.issueAs c 5) w, (s.opHere c 5 w body).x.mem,
        (s.opHere c 5 w body).x.effs, false⟩) := by
    rw [issueMeOn, onCore, if_pos h.core, work_eq s c _ h.runs (congrArg Cx.late work), work]
  rw [next]
  generalize s.opHere c 5 w body = r at engs ⊢
  have context : (g.get .reset 5).ctx (s.issueAs c 5).ctx =
      { (r.x.c.eng 5).ctx (s.issueAs c 5).ctx with waited := ((g.get .reset 5).ctx (s.issueAs c 5).ctx).waited } := by
    rw [Core.eng, engs]
    exact contexts _
  refine ⟨_, rfl, rfl, rfl, (r.withEngs g).left_eq .., (r.withEngs g).headFree_left .., ?_, fun d due later => ?_, fun endless => ?_⟩
  · refine ((r.withEngs g).ctx_left ..).trans ?_
    change ({ (r.after.getD (((g.get .reset 5).ctx (s.issueAs c 5).ctx).take w).close).onward with
      begun := (s.env c).begunAfter 5 (s.issueAs c 5).ctx (s.issueAs c 5).pc ((g.get .reset 5).ctx (s.issueAs c 5).ctx).begun } : Ctx) = _
    rw [context]
    cases r.after with
    | none => simp only [Option.getD_none, Ctx.onward_take_waited]
    | some k => rfl
  · have later : r.due ≠ some (s.issueAs c 5).t := due ▸ fun same => Nat.ne_of_gt later (Option.some.inj same)
    rw [← due]
    exact (r.withEngs g).infl_left _ _ w later
  · have later : r.due ≠ some (s.issueAs c 5).t := endless ▸ nofun
    rw [← endless]
    exact (r.withEngs g).infl_left _ _ w later

/-- What an issue leaves of the ME, the TE, the delayed writes and what is in flight, and its effects outside the core. -/
theorem State.Issues.leaves {s : State} {c eng : Nat} {w : Word} {r : OpRes} {o : Result} (h : s.Issues c eng w r o) :
    ∃ y : Cx, o = .next (s.take c y) ∧ y.effs = r.x.effs ∧ y.c.me = r.x.c.me ∧ y.c.te = r.x.c.te ∧ y.c.pend = r.x.c.pend ∧
      ∀ d, r.due = some d → s.issueCycle c eng < d → ∃ i ∈ y.c.infl, i.tid = (s.core c).nextTid ∧ i.due = some d := by
  obtain ⟨y, next, -, effs, core, -, -, flight, -⟩ := h
  refine ⟨y, next, effs, ?_, ?_, ?_, fun d due later => ⟨_, flight d due later, rfl, rfl⟩⟩
  all_goals rw [core]

end Sys2Proof.Machine
end

section
/-! SUPPORT. What the operations of the ME do at their issue (R302 to R317). -/

namespace Sys2Proof.Machine

@[simp] theorem Core.endOf_setEnd (c : Core) (n : Nat) (e : MEnd) : (c.setEnd n e).me.endOf n = e := SMap.get_put_self ..

@[simp] theorem Core.now_setEnd (c : Core) (n : Nat) (e : MEnd) : (c.setEnd n e).now = c.now := rfl

@[simp] theorem State.issueCore_me (s : State) (c e : Nat) (w : Word) : (s.issueCore c e w).me = (s.core c).me := by
  rw [s.issueCore_eq]

@[simp] theorem State.issueCore_sends (s : State) (c e : Nat) (w : Word) : (s.issueCore c e w).te.sends = (s.core c).te.sends := by
  rw [s.issueCore_eq]

/-- An instruction issues in its issue cycle: the core has come to it. -/
theorem State.issueCore_now (s : State) (c e : Nat) (w : Word) : (s.issueCore c e w).now = s.issueCycle c e := by
  have come : (s.issueCore c e w).now = ((s.core c).advance (s.issueCycle c e)).now := by
    rw [State.issueCore, Core.consumeWait_eq]
  have reached : (s.core c).now ≤ s.issueCycle c e := Nat.le_max_left ..
  rw [come, Core.advance]
  split
  case isTrue past => exact Nat.le_antisymm reached past
  case isFalse => rfl

/-! ### MSEND and MCOMB (R302, R307, R314) -/

/-- A message that fits before the end of its ring, and for which its end has the credit, goes without a pad (R302). -/
theorem msendReady_of_room (env : Env) (endn areg len t : Nat) (x : Cx) (sound : x.c.sendErrs env 1 endn areg len = [])
    (room : (x.c.me.endOf endn).pos + (len + 1) ≤ (x.c.me.endOf endn).cap) (credit : len + 1 ≤ (x.c.me.endOf endn).credit) :
    msendReady env endn areg len t x = .go x t := by
  have fits : ¬(x.c.me.endOf endn).cap < len + 1 := by omega
  simp [msendReady, sound, fits, Nat.not_lt.mpr room, Nat.not_lt.mpr credit]

theorem mcombReady_of_credit (env : Env) (endn areg len t : Nat) (x : Cx) (sound : x.c.sendErrs env 3 endn areg len = [])
    (credit : (x.c.me.endOf endn).credit ≠ 0) : mcombReady env endn areg len t x = .go x t := by
  simp [mcombReady, sound, credit]

theorem opMsend_blind (env : Env) (endn areg : Nat) (inc : Bool) (len tag : Nat) : EngineBlind (opMsend env endn areg inc len tag) := by
  intro i x g
  cases inc <;> rfl

theorem opMcomb_blind (env : Env) (endn areg : Nat) (inc : Bool) (len : Nat) : EngineBlind (opMcomb env endn areg inc len) := by
  intro i x g
  cases inc <;> rfl

/-- MSEND spends the words of its message and moves the end's position and sequence number on (R302). -/
theorem opMsend_endOf (env : Env) (endn areg : Nat) (inc : Bool) (len tag : Nat) (i : Iss) (x : Cx) :
    let e := x.c.me.endOf endn
    (opMsend env endn areg inc len tag i x).x.c.me.endOf endn =
      { e with
        credit := e.credit - (len + 1), pos := if e.cap = 0 then 0 else (e.pos + (len + 1)) % e.cap, seq := (e.seq + 1) % 2048
        count := if e.session then satAdd (2 ^ 36 - 1) e.count 1 else e.count } := by
  cases inc <;> exact Core.endOf_setEnd ..

/-- MSEND's message waits for its source read (R307). -/
theorem opMsend_sends (env : Env) (endn areg : Nat) (inc : Bool) (len tag : Nat) (i : Iss) (x : Cx) :
    let e := x.c.me.endOf endn
    ∃ d, (opMsend env endn areg inc len tag i x).x.c.te.sends = x.c.te.sends ++ [d] ∧ d.kind = .msg endn tag len e.seq e.pos ∧
      d.size = 8 * len := by
  cases inc <;> exact ⟨_, rfl, rfl, rfl⟩

/-- MCOMB spends the credit of its end (R314). -/
theorem opMcomb_endOf (env : Env) (endn areg : Nat) (inc : Bool) (len : Nat) (i : Iss) (x : Cx) :
    (opMcomb env endn areg inc len i x).x.c.me.endOf endn = { x.c.me.endOf endn with credit := 0 } := by
  cases inc <;> exact Core.endOf_setEnd ..

/-- MCOMB's contribution waits for its source read (R307, R314). -/
theorem opMcomb_sends (env : Env) (endn areg : Nat) (inc : Bool) (len : Nat) (i : Iss) (x : Cx) :
    ∃ d, (opMcomb env endn areg inc len i x).x.c.te.sends = x.c.te.sends ++ [d] ∧ d.kind = .comb endn ∧ d.size = 8 * len := by
  cases inc <;> exact ⟨_, rfl, rfl, rfl⟩

/-- The issue of an MSEND that has its credit and its room (R302, R307). It is said of any word `w`, as for the other operations below: with the word
of the encoding in place, the kernel would reduce the encoding too. -/
theorem msend_issued (s : State) (c : Nat) (w : Word) (endn areg : Nat) (inc : Bool) (len tag : Nat) (head : s.Head c 5 w)
    (idle : (s.core c).me.bkind = 0) (sound : (s.core c).sendErrs (s.env c) 1 endn areg len = []) :
    let e := (s.core c).me.endOf endn
    e.pos + (len + 1) ≤ e.cap → len + 1 ≤ e.credit →
    ∃ y : Cx, issueMeOn s c w (fun env => msendReady env endn areg len) (fun env => opMsend env endn areg inc len tag) = .next (s.take c y) ∧ y.effs = [] ∧
      (y.c.me.endOf endn).credit = e.credit - (len + 1) ∧ (y.c.me.endOf endn).pos = (e.pos + (len + 1)) % e.cap ∧
      (y.c.me.endOf endn).seq = (e.seq + 1) % 2048 ∧
      ∃ d, y.c.te.sends = (s.core c).te.sends ++ [d] ∧ d.kind = .msg endn tag len e.seq e.pos ∧ d.size = 8 * len := by
  intro e room credit
  have go : msendReady (s.env c) endn areg len (s.issueCycle c 5) (s.waitedCx c w) = .go (s.waitedCx c w) (s.issueCycle c 5) := by
    refine msendReady_of_room _ _ _ _ _ _ ((s.waitedCore_sendErrs ..).trans sound) ?_ ?_
    all_goals rwa [State.waitedCx, s.waitedCore_me]
  obtain ⟨y, next, effs, me, te, -⟩ := (issuesMe_of s c w head idle (fun env => msendReady env endn areg len) go
    (fun env => opMsend env endn areg inc len tag) (opMsend_blind _ _ _ _ _ _) rfl).leaves
  have endOf := (congrArg (Me.endOf · endn) me).trans (opMsend_endOf ..)
  obtain ⟨d, sends, kind, size⟩ := opMsend_sends (s.env c) endn areg inc len tag (s.issueAs c 5) ⟨s.issueCore c 5 w, s.mem, [], false⟩
  rw [s.issueCore_me] at endOf kind
  rw [s.issueCore_sends] at sends
  have ring : e.cap ≠ 0 := by omega
  exact ⟨y, next, effs, congrArg MEnd.credit endOf, (congrArg MEnd.pos endOf).trans (if_neg ring), congrArg MEnd.seq endOf,
    d, (congrArg Te.sends te).trans sends, kind, size⟩

theorem mcomb_issued (s : State) (c : Nat) (w : Word) (endn areg : Nat) (inc : Bool) (len : Nat) (head : s.Head c 5 w)
    (idle : (s.core c).me.bkind = 0) (sound : (s.core c).sendErrs (s.env c) 3 endn areg len = []) (credit : ((s.core c).me.endOf endn).credit ≠ 0) :
    ∃ y : Cx, issueMeOn s c w (fun env => mcombReady env endn areg len) (fun env => opMcomb env endn areg inc len) = .next (s.take c y) ∧ y.effs = [] ∧
      (y.c.me.endOf endn).credit = 0 ∧ ∃ d, y.c.te.sends = (s.core c).te.sends ++ [d] ∧ d.kind = .comb endn ∧ d.size = 8 * len := by
  have go : mcombReady (s.env c) endn areg len (s.issueCycle c 5) (s.waitedCx c w) = .go (s.waitedCx c w) (s.issueCycle c 5) := by
    refine mcombReady_of_credit _ _ _ _ _ _ ((s.waitedCore_sendErrs ..).trans sound) ?_
    rwa [State.waitedCx, s.waitedCore_me]
  obtain ⟨y, next, effs, me, te, -⟩ := (issuesMe_of s c w head idle (fun env => mcombReady env endn areg len) go
    (fun env => opMcomb env endn areg inc len) (opMcomb_blind _ _ _ _ _) rfl).leaves
  have endOf := (congrArg (Me.endOf · endn) me).trans (opMcomb_endOf ..)
  obtain ⟨d, sends, kind, size⟩ := opMcomb_sends (s.env c) endn areg inc len (s.issueAs c 5) ⟨s.issueCore c 5 w, s.mem, [], false⟩
  rw [s.issueCore_sends] at sends
  exact ⟨y, next, effs, congrArg MEnd.credit endOf, d, (congrArg Te.sends te).trans sends, kind, size⟩

/-! ### MREL (R305, R310) -/

/-- The end from which MREL has released its head message `r` (R305, R310). -/
def MEnd.released (e : MEnd) (r : MsgRec) : MEnd :=
  { e with
    recs := e.dropHead, pos := if e.cap = 0 then 0 else (r.pos + r.words) % e.cap, seq := (r.seq + 1) % 2048
    count := if e.session then satAdd (2 ^ 36 - 1) e.count 1 else e.count }

/-- MREL at a receive end whose head message is `r` releases it and returns the credit of its words (R305). -/
theorem opMrel_of_headMsg (endn : Nat) (i : Iss) (x : Cx) (r : MsgRec) (role : (x.c.me.endOf endn).role = 2)
    (message : (x.c.me.endOf endn).headMsg = some r) :
    let e := x.c.me.endOf endn
    opMrel endn i x =
      .now i (({ x with c := x.c.setEnd endn (e.released r) } : Cx).emit [.credit e.pchip e.pcore e.pend r.words (e.returnDue i.t)]) := by
  simp [opMrel, role, message, MEnd.released]

theorem opMrel_blind (endn : Nat) : EngineBlind (opMrel endn) := by
  intro i x g
  have me : (x.withEngs g).c.me = x.c.me := rfl
  unfold opMrel
  simp only [me]
  split
  · rfl
  · split <;> rfl

theorem mrel_issued (s : State) (c : Nat) (w : Word) (endn : Nat) (r : MsgRec) (head : s.Head c 5 w) (idle : (s.core c).me.bkind = 0) :
    let e := (s.core c).me.endOf endn
    let t := s.issueCycle c 5
    e.role = 2 → e.headMsg = some r →
    ∃ y : Cx, issueMeOn s c w (fun _ => goReady) (fun _ => opMrel endn) = .next (s.take c y) ∧
      (y.c.me.endOf endn).recs = e.dropHead ∧ (y.c.me.endOf endn).seq = (r.seq + 1) % 2048 ∧
      y.effs = [(t, .credit e.pchip e.pcore e.pend r.words (e.returnDue t))] := by
  intro e t role message
  have me := s.issueCore_me c 5 w
  have result := opMrel_of_headMsg endn (s.issueAs c 5) ⟨s.issueCore c 5 w, s.mem, [], false⟩ r (by rwa [me]) (by rwa [me])
  rw [me] at result
  obtain ⟨y, next, effs, me, -⟩ := (issuesMe_of s c w head idle (fun _ => goReady) rfl (fun _ => opMrel endn) (opMrel_blind _)
    (congrArg OpRes.errs result)).leaves
  have returned := effs.trans (congrArg (fun r : OpRes => r.x.effs) result)
  have endOf := ((congrArg (Me.endOf · endn) me).trans (congrArg (fun r : OpRes => r.x.c.me.endOf endn) result)).trans (Core.endOf_setEnd ..)
  refine ⟨y, next, congrArg MEnd.recs endOf, congrArg MEnd.seq endOf, returned.trans ?_⟩
  simp [Cx.emit, OpRes.now, s.issueCore_now, State.issueAs, e, t]

/-! ### MRECV (R303, R306, R308, R309) -/

/-- What a search keeps of a list is one of its elements, where each step keeps what it had or takes the element it is at. -/
theorem mem_of_foldl_some {α : Type} (f : Option α → α → Option α) (keeps : ∀ b a, f b a = b ∨ f b a = some a) (l : List α) (b : Option α) (m : α)
    (found : l.foldl f b = some m) : m ∈ l ∨ b = some m := by
  induction l generalizing b with
  | nil => exact .inr found
  | cons a l ih =>
    obtain later | here := ih (f b a) found
    · exact .inl (List.mem_cons_of_mem a later)
    · obtain kept | took := keeps b a
      · exact .inr (kept.symm.trans here)
      · exact .inl (by simp [Option.some.inj (took.symm.trans here)])

/-- The end that MRECV selects has a receivable message (R308). -/
theorem Me.headMsg_of_select (m : Me) (mask : Nat) (rot : Bool) (n : Nat) (selected : m.select mask rot = some n) :
    ((m.endOf n).headMsg).isSome = true := by
  suffices n ∈ (setBitsOf 32 mask).filter fun n => (m.endOf n).headMsg.isSome from (List.mem_filter.mp this).2
  unfold Me.select at selected
  cases rot with
  | true => simpa using List.find?_some selected
  | false =>
    refine (mem_of_foldl_some _ (fun b a => ?_) _ _ _ selected).resolve_right nofun
    cases b with
    | none => exact .inr rfl
    | some k =>
      by_cases higher : (m.endOf k).prio < (m.endOf a).prio
      · exact .inr (if_pos higher)
      · exact .inl (if_neg higher)

/-- The receive record that an MRECV writes: of the head message at the end it selects, or a clear one where it selects none (R308, R309). -/
def Core.received (c : Core) (mask : Nat) (rot : Bool) : Rx :=
  match c.me.select mask rot with
  | none => .reset
  | some n => c.rxOf n

theorem Core.received_of_none (c : Core) (mask : Nat) (rot : Bool) (nothing : c.me.select mask rot = none) : c.received mask rot = .reset := by
  rw [received, nothing]

theorem Core.received_of_some (c : Core) (mask : Nat) (rot : Bool) (n : Nat) (selected : c.me.select mask rot = some n) :
    c.received mask rot = c.rxOf n := by
  rw [received, selected]

/-- The receive record of the selected end is a valid one that names it (R309). -/
theorem Core.rxOf_of_select (c : Core) (mask : Nat) (rot : Bool) (n : Nat) (selected : c.me.select mask rot = some n) :
    (c.rxOf n).valid = true ∧ (c.rxOf n).endn = n := by
  obtain ⟨r, message⟩ := Option.isSome_iff_exists.mp (c.me.headMsg_of_select mask rot n selected)
  simp [rxOf, message]

/-- MRECV completes in the cycle after its issue, and writes RX then (R306, R309). -/
theorem opMrecv_leaves (mask : Nat) (rot : Bool) (i : Iss) (x : Cx) :
    let r := opMrecv mask rot i x
    r.errs = [] ∧ r.due = some (i.t + 1) ∧ r.x.effs = x.effs ∧ r.x.c.pend = x.c.pend ++ [⟨i.t + 1, i, .rx (x.c.received mask rot)⟩] := by
  cases selected : x.c.me.select mask rot with
  | none => simp [opMrecv, selected, x.c.received_of_none mask rot selected, OpRes.at_, Core.pendWr]
  | some n => cases rot <;> simp [opMrecv, selected, x.c.received_of_some mask _ n selected, OpRes.at_, Core.pendWr]

theorem opMrecv_blind (mask : Nat) (rot : Bool) : EngineBlind (opMrecv mask rot) := by
  intro i x g
  have me : (x.withEngs g).c.me = x.c.me := rfl
  unfold opMrecv
  simp only [me]
  split
  · rfl
  · cases rot <;> rfl

/-- An MRECV over receive ends goes on with POLL, or where it has a message to select (R308, R311). -/
theorem mrecvReady_of_receive (mask : Nat) (rot poll : Bool) (t : Nat) (x : Cx) (roles : ∀ n ∈ setBitsOf 32 mask, (x.c.me.endOf n).role = 2)
    (found : poll = true ∨ (x.c.me.select mask rot).isSome) : mrecvReady mask rot poll t x = .go x t := by
  have legal : ((setBitsOf 32 mask).any fun n => (x.c.me.endOf n).role != 2) = false := by simpa using roles
  rw [mrecvReady, if_neg (Bool.eq_false_iff.mp legal), if_pos (by simpa using found)]

theorem mrecv_issued (s : State) (c : Nat) (w : Word) (mask : Nat) (rot poll : Bool) (head : s.Head c 5 w) (idle : (s.core c).me.bkind = 0)
    (roles : ∀ n ∈ setBitsOf 32 mask, ((s.core c).me.endOf n).role = 2) (found : poll = true ∨ ((s.core c).me.select mask rot).isSome) :
    let t := s.issueCycle c 5
    let m := (s.core c).me
    ∃ y : Cx, issueMeOn s c w (fun _ => mrecvReady mask rot poll) (fun _ => opMrecv mask rot) = .next (s.take c y) ∧ y.effs = [] ∧
      (∃ x : Rx, (⟨t + 1, s.issueAs c 5, .rx x⟩ : Pend) ∈ y.c.pend ∧ (m.select mask rot = none → x = .reset) ∧
        ∀ n, m.select mask rot = some n → x.valid = true ∧ x.endn = n) ∧
      ∃ i ∈ y.c.infl, i.tid = (s.core c).nextTid ∧ i.due = some (t + 1) := by
  intro t m
  have go : mrecvReady mask rot poll (s.issueCycle c 5) (s.waitedCx c w) = .go (s.waitedCx c w) (s.issueCycle c 5) := by
    apply mrecvReady_of_receive
    all_goals rwa [State.waitedCx, s.waitedCore_me]
  obtain ⟨passes, due, quiet, writes⟩ := opMrecv_leaves mask rot (s.issueAs c 5) ⟨s.issueCore c 5 w, s.mem, [], false⟩
  obtain ⟨y, next, effs, -, -, pend, flight⟩ := (issuesMe_of s c w head idle (fun _ => mrecvReady mask rot poll) go (fun _ => opMrecv mask rot)
    (opMrecv_blind _ _) passes).leaves
  have me : (s.issueCore c 5 w).me = m := s.issueCore_me c 5 w
  refine ⟨y, next, effs.trans quiet, ⟨(s.issueCore c 5 w).received mask rot, ?_, fun nothing => ?_, fun n selected => ?_⟩,
    flight _ due (Nat.lt_succ_self t)⟩
  · rw [pend.trans writes]
    exact List.mem_append_right _ (List.mem_singleton.mpr rfl)
  · rw [← me] at nothing
    exact Core.received_of_none _ _ _ nothing
  · rw [← me] at selected
    rw [Core.received_of_some _ _ _ n selected]
    exact Core.rxOf_of_select _ _ _ n selected

/-! ### MCTAKE (R311, R317) -/

/-- An MCTAKE that passes its checks takes a complete result, which lands from the fourth cycle on, 144 nonets to a cycle; the queue is reopened as it
completes (R317). -/
theorem opMctake_of_passes (env : Env) (q areg : Nat) (inc : Bool) (i : Iss) (x : Cx) (passes : (opMctake env q areg inc i x).errs = []) :
    let k := x.c.me.comb.get .reset q
    let r := opMctake env q areg inc i x
    k.complete = true ∧ r.due = some (i.t + 3 + cdiv (8 * (k.size + 1)) 144) ∧ r.hold = 1 ∧ r.acts = [.comb q] := by
  intro k r
  cases complete : (x.c.me.comb.get .reset q).complete with
  | false => simp [opMctake, complete, OpRes.bad] at passes
  | true =>
    refine ⟨rfl, ?_⟩
    cases place : env.ownScratch (alignDown (x.c.areg areg) 8) (8 * ((x.c.me.comb.get .reset q).size + 1)) with
    | none => simp [opMctake, complete, place, OpRes.bad] at passes
    | some off =>
      by_cases legal : x.c.landErrs env.step off (8 * ((x.c.me.comb.get .reset q).size + 1)) = []
      · simp [r, k, opMctake, complete, place, legal, OpRes.at_]
      · simp [opMctake, complete, place, legal, OpRes.bad] at passes

theorem opMctake_blind (env : Env) (q areg : Nat) (inc : Bool) : EngineBlind (opMctake env q areg inc) := by
  intro i x g
  have me : (x.withEngs g).c.me = x.c.me := rfl
  have address : (x.withEngs g).c.areg areg = x.c.areg areg := rfl
  have checks (off n : Nat) : (x.withEngs g).c.landErrs env.step off n = x.c.landErrs env.step off n := rfl
  unfold opMctake
  simp only [me, address, checks]
  split
  · rfl
  · split
    · rfl
    · split
      · rfl
      · cases inc <;> rfl

theorem mctake_issued (s : State) (c : Nat) (w : Word) (q areg : Nat) (inc : Bool) (head : s.Head c 5 w) (idle : (s.core c).me.bkind = 0) :
    let k := (s.core c).me.comb.get .reset q
    let r := s.opHere c 5 w fun env => opMctake env q areg inc
    r.errs = [] →
      s.Issues c 5 w r (issueMeOn s c w (fun _ => goReady) fun env => opMctake env q areg inc) ∧ k.complete = true ∧
        r.lasts (s.issueCycle c 5 + 3 + cdiv (8 * (k.size + 1)) 144) 1 ∧ r.acts = [.comb q] := by
  intro k r passes
  obtain ⟨complete, due, hold, acts⟩ := opMctake_of_passes (s.env c) q areg inc (s.issueAs c 5) ⟨s.issueCore c 5 w, s.mem, [], false⟩ passes
  rw [s.issueCore_me] at complete due
  exact ⟨issuesMe_of s c w head idle (fun _ => goReady) rfl _ (opMctake_blind _ _ _ _) passes, complete, ⟨passes, due, hold⟩, acts⟩

end Sys2Proof.Machine
end

section
/-! The statements of spec/11_message_channels.md. -/

open Sys2Proof Sys2Proof.Machine

/-- Settles O33: none of the five is held, so each issues as its operation says (`issuesMe_of`), and each clause is what the operation leaves of its
end, of the sends, of the delayed writes and of the effects. The words of the encodings are left to unification (see `msend_issued`). -/
theorem messageOperations : Obligations.MessageOperations := by
  intro s c ctl endn areg inc len tag mask rot poll q r
  refine fun idle => ⟨fun head sound room credit => ?msend, fun head sound credit => ?mcomb, fun head role message => ?mrel,
    fun head roles found => ?mrecv, fun head passes => ?mctake⟩
  case msend => exact msend_issued s c _ endn.toNat areg.toNat inc len.toNat tag.toNat head idle sound room credit
  case mcomb => exact mcomb_issued s c _ endn.toNat areg.toNat inc len.toNat head idle sound credit
  case mrel => exact mrel_issued s c _ endn.toNat r head idle role message
  case mrecv => exact mrecv_issued s c _ mask.toNat rot poll head idle roles found
  case mctake => exact mctake_issued s c _ q.toNat areg.toNat inc head idle passes

end

section
/-! SUPPORT. Words of memory read back (R249, R322): what a run of words leaves in the context table, where no region in use copies it there, and
the working copies of the ready store (R326). -/

namespace Sys2Proof.Machine

/-! ### The entry of a key -/

/-- The entry that a key names, after a put at a key. -/
theorem SMap.find?_put {α : Type} (m : SMap α) (k j : Nat) (v : α) :
    ((m.put k v).entries.find? fun e => e.1 == j) = if j = k then some (k, v) else m.entries.find? fun e => e.1 == j := by
  obtain ⟨l⟩ := m
  show (insertL l k v).find? _ = _
  induction l with
  | nil => grind [insertL]
  | cons e r ih => grind [insertL]

/-- A key that was taken out names no entry. -/
theorem SMap.find?_erase_self {α : Type} (m : SMap α) (k : Nat) : ((m.erase k).entries.find? fun e => e.1 == k) = none := by
  obtain ⟨l⟩ := m
  show (eraseL l k).find? _ = _
  induction l with
  | nil => rfl
  | cons e r ih => grind [eraseL]

/-- A key that no entry holds names none. -/
theorem SMap.find?_of_any_false {α : Type} {m : SMap α} {k : Nat} (h : (m.entries.any fun e => e.1 == k) = false) :
    (m.entries.find? fun e => e.1 == k) = none :=
  List.find?_eq_none.mpr (List.any_eq_false.mp h)

/-! ### Words, nonet by nonet -/

/-- A word is its eight nonets (R5). -/
theorem word_ext_nonets (v w : Word) (h : ∀ i < 8, nonetOf v i = nonetOf w i) : v = w := by
  refine BitVec.eq_of_getLsbD_eq fun j hj => ?_
  have bit (x : Word) : (nonetOf x (j / 9)).getLsbD (j % 9) = x.getLsbD j := by
    have within : j % 9 < 9 := Nat.mod_lt j (by decide)
    rw [nonetOf, BitVec.getLsbD_ofNat, Nat.testBit_div_two_pow, Nat.mod_add_div, BitVec.testBit_toNat, decide_eq_true within, Bool.true_and]
  rw [← bit v, ← bit w, h _ (by omega)]

theorem length_flatMap_wordNts (ws : List Word) (p : Bool) : (ws.flatMap fun w => wordNts w p).length = 8 * ws.length := by
  induction ws with
  | nil => rfl
  | cons w ws ih =>
    have eight : (wordNts w p).length = 8 := by rw [wordNts, List.length_map, length_toNonets]
    rw [List.flatMap_cons, List.length_append, eight, ih, List.length_cons, Nat.mul_add, Nat.add_comm]

/-- Nonet `b` of a run of words. -/
theorem getD_flatMap_wordNts (ws : List Word) (b : Nat) (h : b < 8 * ws.length) :
    ((ws.flatMap fun w => wordNts w false).getD b ⟨0, false⟩).v = nonetOf (ws.getD (b / 8) 0) (b % 8) := by
  induction ws generalizing b with
  | nil => simp at h
  | cons w ws ih =>
    have eight : (wordNts w false).length = 8 := by simp [wordNts]
    rw [List.flatMap_cons, List.getD_eq_getElem?_getD]
    by_cases first : b < 8
    · rw [List.getElem?_append_left (by omega), Nat.div_eq_of_lt first, Nat.mod_eq_of_lt first, nonetOf_eq]
      simp only [wordNts, List.getElem?_map, getElem?_toNonets, if_pos first]
      rfl
    · obtain ⟨k, rfl⟩ : ∃ k, b = 8 + k := ⟨b - 8, by omega⟩
      rw [List.length_cons] at h
      rw [List.getElem?_append_right (by omega), eight, Nat.add_sub_cancel_left, ← List.getD_eq_getElem?_getD, ih k (by omega),
        Nat.add_div_left k (by decide), Nat.add_mod_left, List.getD_cons_succ]

@[simp] theorem SMap.length_readList {α : Type} (m : SMap α) (d : α) (k n : Nat) : (m.readList d k n).length = n := by
  induction n generalizing k with
  | zero => rfl
  | succ n ih => simp [SMap.readList, ih]

/-- Word `i` of a run that is read. -/
theorem SMap.getD_readList {α : Type} (m : SMap α) (d e : α) (k n i : Nat) (h : i < n) : (m.readList d k n).getD i e = m.get d (k + i) := by
  induction n generalizing k i with
  | zero => omega
  | succ n ih =>
    cases i with
    | zero => rfl
    | succ i => rw [SMap.readList, List.getD_cons_succ, ih _ _ (by omega), Nat.add_right_comm, Nat.add_assoc]

/-- Two runs of as many words are one where their nonets are the same. -/
theorem words_ext_nonets (l r : List Word) (n : Nat) (left : l.length = n) (right : r.length = n)
    (h : ∀ b < 8 * n, nonetOf (l.getD (b / 8) 0) (b % 8) = nonetOf (r.getD (b / 8) 0) (b % 8)) : l = r := by
  refine List.ext_getElem (left.trans right.symm) fun k hl hr => word_ext_nonets _ _ fun i hi => ?_
  have word : (8 * k + i) / 8 = k := by omega
  have nonet : (8 * k + i) % 8 = i := by omega
  have same := h (8 * k + i) (by omega)
  simpa only [word, nonet, List.getD_eq_getElem?_getD, List.getElem?_eq_getElem hl, List.getElem?_eq_getElem hr, Option.getD_some] using same

/-- Nonet `b` of a run of words that is read. -/
theorem Mem.nonetOf_readWords (m : Mem) (a n b : Nat) (aligned : a % 8 = 0) (h : b < 8 * n) :
    nonetOf ((m.readWords a n).getD (b / 8) 0) (b % 8) = nonetAt m.words (a + b) := by
  have word : (a + b) / 8 = a / 8 + b / 8 := by omega
  have nonet : (a + b) % 8 = b % 8 := by omega
  rw [Mem.readWords, SMap.getD_readList _ _ _ _ _ _ (by omega), nonetAt, word, nonet]

@[simp] theorem Mem.length_readWords (m : Mem) (a n : Nat) : (m.readWords a n).length = n := SMap.length_readList _ _ _ _

/-! ### A write beside the mirror copies (R259, R260) -/

/-- The copy of a write into a region leaves an address outside its mirror copy as it is. -/
theorem Mem.nonetAt_writeMirror_of_outside (a b : Nat) (data : List PNt) (m : Mem) (r : Mirror)
    (out : r.state ≠ 0 → meets r.primary r.size a data.length = true → b < r.mirror ∨ r.mirror + r.size ≤ b) :
    nonetAt (Mem.writeMirror a data m r).words b = nonetAt m.words b := by
  simp only [Mem.writeMirror]
  split
  next copied =>
    simp only [Bool.and_eq_true, bne_iff_ne, decide_eq_true_eq] at copied
    simp only [meets, Bool.and_eq_true, decide_eq_true_eq] at out
    have away := out copied.1 (by omega)
    rw [Mem.nonetAt_writeCopy, overlay, List.length_take, List.length_drop, if_neg (by omega)]
  next => rfl

/-- A write lays its nonets over what stood, outside the mirror copies of the regions that it meets. -/
theorem Mem.nonetAt_write_of_outside (m : Mem) (a b : Nat) (data : List PNt)
    (out : ∀ r ∈ m.mirrors, r.state ≠ 0 → meets r.primary r.size a data.length = true → b < r.mirror ∨ r.mirror + r.size ≤ b) :
    nonetAt (m.write a data).words b = overlay (nonetAt m.words) a data b := by
  rw [← m.nonetAt_writeCopy, Mem.write]
  generalize m.mirrors = l at out ⊢
  generalize m.writeCopy a data = t
  induction l generalizing t with
  | nil => rfl
  | cons r l ih =>
    rw [List.foldl_cons, ih (fun r hr => out r (List.mem_cons_of_mem _ hr)),
      Mem.nonetAt_writeMirror_of_outside _ _ _ _ _ (out r List.mem_cons_self)]

/-- A copy that holds an address of the context table lies in stack 5 (R322). -/
theorem copyPlace_of_table (a n p b : Nat) (h : copyPlace a n = some p) (begun : a ≤ b) (within : b < a + n) (table : tableBase ≤ b)
    (ends : b < sessAddr 1048576) : p = 5 := by
  unfold copyPlace at h
  split at h
  next => cases h
  next =>
    split at h
    next near =>
      simp only [isNear, Bool.and_eq_true, decide_eq_true_eq, beq_iff_eq] at near
      simp only [nearStack, nearBase, stackSize, tableBase, sessAddr, Option.some.injEq] at near h table ends
      omega
    next =>
      split at h
      next far =>
        simp only [isFar, Bool.and_eq_true, decide_eq_true_eq] at far
        simp only [farBase, tableBase, sessAddr] at far table ends
        omega
      next => cases h

/-- The copies of a region lie in two places (R259): where the primary copy meets the context table, the mirror copy lies outside it. -/
theorem Mirror.outside_table (r : Mirror) (i b : Nat) (placed : r.placed = true) (hi : i < 1048576)
    (held : meets r.primary r.size (sessAddr i) 64 = true) (table : tableBase ≤ b) (ends : b < sessAddr 1048576) :
    b < r.mirror ∨ r.mirror + r.size ≤ b := by
  refine Decidable.byContradiction fun inside => ?_
  simp only [meets, Bool.and_eq_true, decide_eq_true_eq] at held
  simp only [Mirror.placed, Bool.and_eq_true] at placed
  obtain ⟨-, apart⟩ := placed
  have block : tableBase ≤ sessAddr i ∧ sessAddr i + 64 ≤ sessAddr 1048576 := by
    simp only [sessAddr]
    omega
  split at apart
  next p q primary mirror =>
    have first := copyPlace_of_table _ _ _ (max r.primary (sessAddr i)) primary (by omega) (by omega) (by omega) (by omega)
    have second := copyPlace_of_table _ _ _ b mirror (by omega) (by omega) table ends
    simp [first, second] at apart
  next => cases apart

/-! ### Descriptors (R322 to R326) -/

@[simp] theorem Sess.length_words (d : Sess) : d.words.length = 8 := rfl

/-- Two states are equal but for the adapter entries and the dictionary, which count sessions. -/
def State.sameButCounts (s t : State) : Prop := ∃ adapters dict, t = { s with adapters := adapters, dict := dict }

theorem State.sameButCounts_trans {s t u : State} (h : s.sameButCounts t) (g : t.sameButCounts u) : s.sameButCounts u := by
  obtain ⟨a, d, rfl⟩ := h
  obtain ⟨b, e, rfl⟩ := g
  exact ⟨b, e, rfl⟩

theorem State.sameButCounts_useAdapter (s : State) (a : Option Nat) (join : Bool) : s.sameButCounts (s.useAdapter a join) := by
  cases a with
  | none => exact ⟨_, _, rfl⟩
  | some n => exact ⟨_, _, rfl⟩

theorem State.sameButCounts_countSess (s : State) (d : Sess) (more : Bool) : s.sameButCounts (s.countSess d more) := by
  unfold State.countSess
  split
  · exact ⟨_, _, rfl⟩
  · exact ⟨_, _, rfl⟩

/-- The ready store with a session's working copy, where it has one, replaced (R326). -/
def State.readyWith (s : State) (i : Nat) (d : Sess) : SMap Ready := (s.copyOf i).elim s.ready fun r => s.ready.put i { r with d := d }

/-- What a new descriptor changes: its working copy, its table block, USERS and the counts (R326, R330). -/
theorem State.setSess_eq (s : State) (i : Nat) (d : Sess) : ∃ adapters dict,
    s.setSess i d =
      { s with adapters := adapters, dict := dict, ready := s.readyWith i d, mem := s.mem.writeWords (sessAddr i) d.words } := by
  obtain ⟨a, n, counted⟩ := State.sameButCounts_trans
    (State.sameButCounts_trans (s.sameButCounts_useAdapter (s.sess i).uses false) (State.sameButCounts_useAdapter _ d.uses true))
    (State.sameButCounts_trans (State.sameButCounts_countSess _ (s.sess i) false) (State.sameButCounts_countSess _ d true))
  have copies : State.copyOf { s with adapters := a, dict := n } i = s.copyOf i := rfl
  refine ⟨a, n, ?_⟩
  unfold State.setSess State.readyWith
  simp only [counted, copies]
  cases s.copyOf i with
  | none => rfl
  | some r => rfl

theorem State.mem_setSess (s : State) (i : Nat) (d : Sess) : (s.setSess i d).mem = s.mem.writeWords (sessAddr i) d.words := by
  obtain ⟨a, n, h⟩ := s.setSess_eq i d
  rw [h]

/-- The working copy that was there holds the new descriptor; every other stays (R326). -/
theorem State.copyOf_setSess (s : State) (i j : Nat) (d : Sess) :
    (s.setSess i d).copyOf j = if j = i then (s.copyOf i).map fun r => { r with d := d } else s.copyOf j := by
  obtain ⟨a, n, h⟩ := s.setSess_eq i d
  have copies : (s.setSess i d).copyOf j = ((s.readyWith i d).entries.find? fun e => e.1 == j).map (·.2) := by rw [h]; rfl
  rw [copies, State.readyWith]
  cases copy : s.copyOf i with
  | none =>
    split
    next same => rw [same]; exact copy
    next => rfl
  | some r =>
    rw [Option.elim_some, SMap.find?_put]
    split <;> rfl

/-- The words of a block of the context table are read where a write of a descriptor has put them, and left where it has not. -/
theorem Mem.readWords_writeWords_table (m : Mem) (i j : Nat) (d : Sess) (hi : i < 1048576) (hj : j < 1048576)
    (placed : ∀ r ∈ m.mirrors, r.state ≠ 0 → r.placed = true) :
    (m.writeWords (sessAddr i) d.words).readWords (sessAddr j) 8 = if j = i then d.words else m.readWords (sessAddr j) 8 := by
  have length := length_flatMap_wordNts d.words false
  rw [d.length_words] at length
  have aligned : sessAddr j % 8 = 0 := by
    simp only [sessAddr, tableBase]
    omega
  have written (b : Nat) (hb : b < 64) : nonetAt (m.writeWords (sessAddr i) d.words).words (sessAddr j + b) =
      overlay (nonetAt m.words) (sessAddr i) (d.words.flatMap fun w => wordNts w false) (sessAddr j + b) := by
    refine m.nonetAt_write_of_outside _ _ _ fun r hr used held => ?_
    rw [length] at held
    exact r.outside_table i _ (placed r hr used) hi held (by simp only [sessAddr]; omega) (by simp only [sessAddr]; omega)
  refine words_ext_nonets _ _ 8 (by simp) (by split <;> simp) fun b hb => ?_
  rw [Mem.nonetOf_readWords _ _ _ _ aligned hb, written b hb, overlay, length]
  by_cases same : j = i
  · rw [if_pos same, same, if_pos (by omega), Nat.add_sub_cancel_left, getD_flatMap_wordNts _ _ (by rw [d.length_words]; exact hb)]
  · rw [if_neg same, Mem.nonetOf_readWords _ _ _ _ aligned hb, if_neg (by simp only [sessAddr]; omega)]

/-- Where the regions in use follow R259, a descriptor reads back as it was written, and every other session's stays (R322 to R326). -/
theorem State.sess_setSess (s : State) (i j : Nat) (d : Sess) (hi : i < 1048576) (hj : j < 1048576) (words : Sess.ofWords d.words = d)
    (placed : ∀ r ∈ s.mem.mirrors, r.state ≠ 0 → r.placed = true) : (s.setSess i d).sess j = if j = i then d else s.sess j := by
  have block := s.mem.readWords_writeWords_table i j d hi hj placed
  unfold State.sess
  rw [s.copyOf_setSess, s.mem_setSess, block]
  by_cases same : j = i
  · simp only [if_pos same, words]
    cases s.copyOf i with
    | none => rfl
    | some r => rfl
  · simp only [if_neg same]

end Sys2Proof.Machine
end

section
/-! SUPPORT. Session commands (R328 to R335): a SESSION entry at the front of its queue, the status by which a command is answered, and what each
command that is applied leaves. -/

namespace Sys2Proof.Machine

/-! ### The front entry of a queue (R385, R387) -/

theorem State.latentRead_of_sound (s : State) (a n : Nat) (h : s.latentFault a n = .none) : s.latentRead a n = (s, false) := by
  simp [State.latentRead, h]

/-- An entry that no check refuses is begun and does what its operation says. -/
theorem onEntry_of_begins {s : State} {q op : Nat} {e : Entry} (h : s.Begins q e op) (want : Entry → Bool) (f : State → Entry → State)
    (wanted : want e = true) : onEntry s q want f = .next (f (s.beginEntry e) e) := by
  have clean : (s.beginEntry e).entryPoisoned e = false := h.clean
  unfold onEntry
  simp only [h.next, if_neg (Nat.not_le.mpr h.queue), s.latentRead_of_sound _ _ h.sound, wanted, h.defined, h.plain, clean, Bool.not_true,
    Bool.or_self, Bool.false_eq_true, if_false]

/-- A SESSION entry reaches the sequencer as its command. -/
theorem onSession_of_begins {s : State} {q cmd : Nat} {e : Entry} (h : s.Begins q e 6) (named : e.cmd = cmd) :
    onSession s q cmd = .next ((s.beginEntry e).arriveCmd e.scmd) :=
  onEntry_of_begins h _ _ (by simp [isCmd, h.op, named])

/-! ### When a command is applied (R328, R331) -/

/-- The command is one for the sequencer to apply at once: no serving program is in a step, its session does not drain for it, and the session's block
did not arrive poisoned. -/
structure State.AppliesAtOnce (s : State) (c : SCmd) : Prop where
  idle : s.servingStep = false
  own : s.isDraining c = false
  clean : s.mem.poisoned (sessAddr c.number) = false

/-- The session is the command's, in the generation it names, and neither failed nor draining. -/
structure Sess.Serves (d : Sess) (c : SCmd) : Prop where
  valid : d.valid = true
  gen : c.gen = d.gen
  alive : d.failed = false
  undrained : d.drain = false

/-- What an accepted command does. -/
def State.cmdEffect (s : State) (c : SCmd) : State :=
  match c.cmd with
  | 1 => s.cmdCreate c
  | 2 => s.cmdSet c
  | 3 => s.cmdRestore c
  | 4 | 5 => s.cmdLeave c
  | _ => s.cmdAdapter c

section
variable {s : State} {c : SCmd}

theorem State.arriveSess_of_clean (i : Nat) (h : s.mem.poisoned (sessAddr i) = false) : s.arriveSess i = s := by
  simp [State.arriveSess, h]

/-- A command that drains no session is answered with its status, or does what it says. -/
theorem State.arriveCmd_of_applies (h : s.AppliesAtOnce c) (stays : s.leaves c = false) :
    s.arriveCmd c = (s.cmdStatus c).elim (s.cmdEffect c) (s.answerCmd c) := by
  have arrived : (if c.cmd ≤ 5 then s.arriveSess c.number else s) = s := by
    rw [State.arriveSess_of_clean _ h.clean, ite_self]
  unfold State.arriveCmd State.applyCmd
  simp only [stays, h.idle, arrived, h.own, Bool.false_eq_true, if_false]
  cases s.cmdStatus c with
  | none => rfl
  | some st => rfl

theorem State.leaves_of_refused {st : Nat} (h : s.cmdStatus c = some st) : s.leaves c = false := by
  simp [State.leaves, h]

theorem State.leaves_of_other (h : c.cmd ≠ 4 ∧ c.cmd ≠ 5) : s.leaves c = false := by
  simp [State.leaves, h]

theorem State.leaves_of_not_running (h : (s.sess c.number).state ≠ 2) : s.leaves c = false := by
  simp [State.leaves, h]

theorem State.arriveCmd_of_serving (stays : s.leaves c = false) (serving : s.servingStep = true) :
    s.arriveCmd c = { s with cmds := s.cmds ++ [c] } := by
  simp [State.arriveCmd, stays, serving]

theorem State.arriveCmd_of_refused {st : Nat} (h : s.AppliesAtOnce c) (status : s.cmdStatus c = some st) : s.arriveCmd c = s.answerCmd c st := by
  rw [State.arriveCmd_of_applies h (State.leaves_of_refused status), status, Option.elim_some]

theorem State.arriveCmd_of_accepted (h : s.AppliesAtOnce c) (stays : s.leaves c = false) (status : s.cmdStatus c = none) :
    s.arriveCmd c = s.cmdEffect c := by
  rw [State.arriveCmd_of_applies h stays, status, Option.elim_none]

/-! ### The status of a command (R331) -/

theorem State.cmdStatus_create (h : c.cmd = 1) :
    s.cmdStatus c = if (s.sess c.number).failed then some 8 else if (s.sess c.number).valid then some 1 else none := by
  simp [State.cmdStatus, h]

theorem State.cmdStatus_adapter (h : 6 ≤ c.cmd) : s.cmdStatus c = none := by
  have other : c.cmd ≠ 1 := by omega
  simp [State.cmdStatus, h, other]

/-- A command that names another generation is STALE, and a failed session takes DELETE alone. -/
theorem State.cmdStatus_of_unserved (low : 2 ≤ c.cmd) (high : c.cmd ≤ 5) (valid : (s.sess c.number).valid = true)
    (unserved : c.gen ≠ (s.sess c.number).gen ∨ (s.sess c.number).failed = true ∧ c.cmd ≠ 5) :
    s.cmdStatus c = some (if c.gen ≠ (s.sess c.number).gen then 2 else 8) := by
  have create : c.cmd ≠ 1 := by omega
  have adapter : ¬6 ≤ c.cmd := by omega
  simp only [State.cmdStatus, if_neg create, if_neg adapter, valid, Bool.not_true, Bool.false_eq_true, if_false]
  split
  · rfl
  next same => simp [unserved.resolve_left same]

theorem State.cmdStatus_set (h : (s.sess c.number).Serves c) (cmd : c.cmd = 2) : s.cmdStatus c = none := by
  simp [State.cmdStatus, cmd, h.valid, h.gen, h.alive, h.undrained]

theorem State.cmdStatus_restore (h : (s.sess c.number).Serves c) (cmd : c.cmd = 3) :
    s.cmdStatus c = if (s.sess c.number).state = 0 ∧ s.restoring c.number = false then none else some 9 := by
  simp [State.cmdStatus, cmd, h.valid, h.gen, h.alive]

theorem State.cmdStatus_evict (h : (s.sess c.number).Serves c) (cmd : c.cmd = 4) (placed : (s.sess c.number).state ≠ 0) : s.cmdStatus c = none := by
  simp [State.cmdStatus, cmd, h.valid, h.gen, h.alive, h.undrained, placed]

theorem State.cmdStatus_delete (h : (s.sess c.number).Serves c) (cmd : c.cmd = 5)
    (undrained : (s.draining.entries.find? fun e => e.1 == c.number) = none) : s.cmdStatus c = none := by
  simp [State.cmdStatus, cmd, h.valid, h.gen, h.alive, undrained]

/-! ### What each command does as it arrives (R328, R331) -/

theorem State.arriveCmd_create (h : s.AppliesAtOnce c) (cmd : c.cmd = 1) (alive : (s.sess c.number).failed = false)
    (fresh : (s.sess c.number).valid = false) : s.arriveCmd c = s.cmdCreate c := by
  have status : s.cmdStatus c = none := by simp [State.cmdStatus_create cmd, alive, fresh]
  simp [State.arriveCmd_of_accepted h (State.leaves_of_other (by omega)) status, State.cmdEffect, cmd]

theorem State.arriveCmd_set (h : s.AppliesAtOnce c) (serves : (s.sess c.number).Serves c) (cmd : c.cmd = 2) : s.arriveCmd c = s.cmdSet c := by
  have status := State.cmdStatus_set serves cmd
  simp [State.arriveCmd_of_accepted h (State.leaves_of_other (by omega)) status, State.cmdEffect, cmd]

theorem State.arriveCmd_restore (h : s.AppliesAtOnce c) (serves : (s.sess c.number).Serves c) (cmd : c.cmd = 3)
    (idle : (s.sess c.number).state = 0) (still : s.restoring c.number = false) : s.arriveCmd c = s.cmdRestore c := by
  have status := (State.cmdStatus_restore serves cmd).trans (if_pos ⟨idle, still⟩)
  simp [State.arriveCmd_of_accepted h (State.leaves_of_other (by omega)) status, State.cmdEffect, cmd]

/-- An EVICT of a Resident session that no earlier command moves goes on at once. -/
theorem State.arriveCmd_evict (h : s.AppliesAtOnce c) (serves : (s.sess c.number).Serves c) (cmd : c.cmd = 4)
    (resident : (s.sess c.number).state = 1) (unmoved : (s.moving.entries.find? fun e => e.1 == c.number) = none) :
    s.arriveCmd c = s.evictNow c := by
  have status := State.cmdStatus_evict serves cmd (by omega)
  simp [State.arriveCmd_of_accepted h (State.leaves_of_not_running (by omega)) status, State.cmdEffect, cmd, State.cmdLeave, unmoved, State.drained]

/-- So does a DELETE, where no earlier command drains the session. -/
theorem State.arriveCmd_delete (h : s.AppliesAtOnce c) (serves : (s.sess c.number).Serves c) (cmd : c.cmd = 5)
    (resident : (s.sess c.number).state = 1) (unmoved : (s.moving.entries.find? fun e => e.1 == c.number) = none)
    (undrained : (s.draining.entries.find? fun e => e.1 == c.number) = none) : s.arriveCmd c = s.deleteNow c := by
  have status := State.cmdStatus_delete serves cmd undrained
  simp [State.arriveCmd_of_accepted h (State.leaves_of_not_running (by omega)) status, State.cmdEffect, cmd, State.cmdLeave, unmoved, State.drained]

theorem State.arriveCmd_adapter (h : s.AppliesAtOnce c) (cmd : c.cmd = 6 ∨ c.cmd = 7) : s.arriveCmd c = s.cmdAdapter c := by
  have status : s.cmdStatus c = none := State.cmdStatus_adapter (by omega)
  rw [State.arriveCmd_of_accepted h (State.leaves_of_other (by omega)) status]
  obtain load | free := cmd
  · simp [State.cmdEffect, load]
  · simp [State.cmdEffect, free]

/-- An EVICT or DELETE of a session whose step runs begins to drain it (R335). -/
theorem State.arriveCmd_drains (serves : (s.sess c.number).Serves c) (cmd : c.cmd = 4 ∨ c.cmd = 5) (running : (s.sess c.number).state = 2)
    (inStep : s.inStep c.number = true) (undrained : (s.draining.entries.find? fun e => e.1 == c.number) = none) :
    s.arriveCmd c = s.beginDrain c := by
  have status : s.cmdStatus c = none := by
    obtain evict | delete := cmd
    · exact State.cmdStatus_evict serves evict (by omega)
    · exact State.cmdStatus_delete serves delete undrained
  exact if_pos (by simp [State.leaves, cmd, running, status, inStep])

/-! ### What an accepted command leaves (R329, R330, R333) -/

theorem State.cmdRestore_of_full (full : s.freePlace = none) : s.cmdRestore c = s.answerCmd c 4 := by
  simp [State.cmdRestore, full]

/-- A RESTORE that names no host address takes the place where the session's KV was kept (R329). -/
theorem State.cmdRestore_near {p : Nat} (place : s.freePlace = some p) (near : c.host = false) :
    s.cmdRestore c = if (s.sess c.number).kept then (s.toResident c.number p).answerCmd c 0 else s.answerCmd c 5 := by
  cases kept : (s.sess c.number).kept with
  | false => simp [State.cmdRestore, place, near, kept]
  | true => simp [State.cmdRestore, place, near, kept]

theorem State.cmdRestore_far {p : Nat} (place : s.freePlace = some p) (far : c.host = true) :
    s.cmdRestore c = s.beginRead { c with image := p } := by
  simp [State.cmdRestore, place, far]

theorem State.moving_sendHost (q n : Nat) (o : Out) : (s.sendHost q n o).moving = s.moving := by
  rw [s.sameButSent_sendHost q n o]

theorem State.out_sendHost_of_sends (q n : Nat) (o : Out) (h : s.sends q = true) : (s.sendHost q n o).out = s.out ++ [o] := by
  rw [State.sendHost, if_pos h]

/-- A RESTORE from the host takes a place and asks for its copy, or waits behind the sixteen that its QP has asked for (R329, R382). -/
theorem State.beginRead_spec (c : SCmd) :
    (s.beginRead c).moving = s.moving.put c.number c ∧
      (s.readsOut c.queue < 16 → s.sends c.queue = true →
        (s.beginRead c).out = s.out ++ [.rdmaRead c.queue c.va c.rkey ((s.sess c.number).kvSize / 8 * 9)]) ∧
      (16 ≤ s.readsOut c.queue → (s.beginRead c).out = s.out ∧ (s.beginRead c).readWait = s.readWait ++ [c.number]) := by
  unfold State.beginRead
  by_cases room : s.readsOut c.queue < 16
  · simp only [if_pos room]
    refine ⟨State.moving_sendHost _ _ _, fun _ sends => State.out_sendHost_of_sends _ _ _ sends, fun full => absurd room (by omega)⟩
  · simp only [if_neg room]
    exact ⟨trivial, fun more => absurd more room, fun _ => ⟨trivial, trivial⟩⟩

theorem State.moving_setSess (i : Nat) (d : Sess) : (s.setSess i d).moving = s.moving := by
  obtain ⟨a, n, h⟩ := s.setSess_eq i d
  rw [h]

/-- An EVICT or DELETE of a session that no earlier one drains sets DRAIN, and waits for the commit in its turn (R335). -/
theorem State.beginDrain_spec (undrained : (s.draining.entries.find? fun e => e.1 == c.number) = none) :
    (s.beginDrain c).draining = s.draining.put c.number c ∧ (s.beginDrain c).cmds = s.cmds ++ [c] ∧
      (s.beginDrain c).copyOf c.number = (s.copyOf c.number).map fun r => { r with d := { s.sess c.number with drain := true } } := by
  have copies := s.copyOf_setSess c.number c.number { s.sess c.number with drain := true }
  rw [if_pos rfl] at copies
  unfold State.beginDrain
  simp only [undrained]
  exact ⟨trivial, trivial, copies⟩

theorem State.evictNow_keep (keep : c.keep = true) : s.evictNow c = (s.toIdle c.number true).answerCmd c 0 := by
  simp [State.evictNow, keep]

/-- An EVICT whose copy goes to the host is on its way (R329). -/
theorem State.moving_evictNow_host (keep : c.keep = false) (host : c.host = true)
    (sound : s.mem.anyPoisonIn (s.sess c.number).kvAddr (s.sess c.number).kvSize = false) :
    (s.evictNow c).moving = s.moving.put c.number c := by
  simp only [State.evictNow, keep, host, sound, Bool.not_true, Bool.or_self, Bool.false_eq_true, if_false]
  rw [State.moving_sendHost, State.moving_setSess]

/-- A DELETE leaves no working copy, and in the table a descriptor that is not valid (R329). -/
theorem State.deleteNow_spec (alive : (s.sess c.number).failed = false) :
    ∃ u : State, s.deleteNow c = u.answerCmd c 0 ∧ u.copyOf c.number = none ∧
      u.mem = s.mem.writeWords (sessAddr c.number) { s.sess c.number with valid := false, state := 0, drain := false }.words := by
  refine ⟨_, rfl, ?_, ?_⟩
  · rw [State.copyOf, SMap.find?_erase_self, Option.map_none]
  · rw [← alive]
    exact State.mem_setSess _ _ _

theorem State.cmdCreate_of_alive (alive : (s.sess c.number).failed = false) :
    let i := Sess.ofWords (s.mem.readWords c.image 8)
    let d : Sess := { i with
      valid := true, state := 0, drain := false, failed := false, missed := false, kept := false
      gen := ((s.sess c.number).gen + 1) % 65536, deadline := 0, position := 0 }
    s.cmdCreate c = if s.noAdapter d then s.answerCmd c 3 else (s.setSess c.number d).answerCmd c 0 := by
  simp only [State.cmdCreate, alive]

theorem State.cmdAdapter_of_used (used : 0 < (s.adapter (c.number % 16384)).users) : s.cmdAdapter c = s.answerCmd c 1 :=
  if_pos used

/-- ALOAD writes the entry of the two words at its image (R332, R333). -/
theorem State.cmdAdapter_load (cmd : c.cmd ≠ 7) (free : (s.adapter (c.number % 16384)).users = 0) (w0 w1 : Word)
    (image : s.mem.readWords c.image 2 = [w0, w1]) :
    ∃ u : State, s.cmdAdapter c = u.answerCmd c 0 ∧
      u.adapter (c.number % 16384) = ⟨true, bits w0 70 68, sgn 9 (bits w0 67 59), bits w0 58 51, bits w0 50 45, 0, bits w1 43 0⟩ := by
  simp only [State.cmdAdapter, free, Nat.lt_irrefl, if_false, if_neg cmd, image]
  exact ⟨_, rfl, SMap.get_put_self _ _ _ _⟩

/-- ADFREE clears a valid entry that no session uses (R333). -/
theorem State.cmdAdapter_free (cmd : c.cmd = 7) (free : (s.adapter (c.number % 16384)).users = 0)
    (valid : (s.adapter (c.number % 16384)).valid = true) :
    ∃ u : State, s.cmdAdapter c = u.answerCmd c 0 ∧ u.adapter (c.number % 16384) = .reset := by
  simp only [State.cmdAdapter, free, Nat.lt_irrefl, if_false, if_pos cmd, valid, Bool.not_true, Bool.false_eq_true]
  exact ⟨_, rfl, SMap.get_put_self _ _ _ _⟩

end

end Sys2Proof.Machine
end

section
/-! SUPPORT. What ends the session commands that take time (R329, R335, R341). -/

namespace Sys2Proof.Machine

section
variable {s : State} {i : Nat} {c : SCmd}

/-- A copy whose words the host sent whole makes its session Resident in its place (R329). -/
theorem execRestoreLanded_whole (hi : i < 1048576) (data : List Word)
    (found : (s.moving.entries.find? fun e => e.1 == i && e.2.cmd == 3 && !(s.readWait.contains i)) = some (i, c))
    (alive : (s.sess i).failed = false) (whole : data.length = (s.sess i).kvSize / 8) :
    execRestoreLanded i true data s =
      .next ((State.toResident { s.endMove i with mem := (s.endMove i).mem.writeWords (s.sess i).kvAddr data } i c.image).answerCmd c 0) := by
  simp only [execRestoreLanded, if_neg (Nat.not_le.mpr hi), found, alive, whole, Bool.false_eq_true, if_false, Bool.not_true, ne_eq,
    not_true_eq_false, decide_false, Bool.or_self]

/-- A transfer that failed ends its RESTORE with XFER. -/
theorem execRestoreLanded_failed (hi : i < 1048576) (data : List Word)
    (found : (s.moving.entries.find? fun e => e.1 == i && e.2.cmd == 3 && !(s.readWait.contains i)) = some (i, c))
    (alive : (s.sess i).failed = false) : execRestoreLanded i false data s = .next ((s.endMove i).answerCmd c 6) := by
  simp only [execRestoreLanded, if_neg (Nat.not_le.mpr hi), found, alive, Bool.false_eq_true, if_false, Bool.not_false, Bool.true_or, if_true]

theorem execEvictWritten_of_moving (hi : i < 1048576) (ok : Bool)
    (found : (s.moving.entries.find? fun e => e.1 == i && e.2.cmd == 4) = some (i, c)) :
    execEvictWritten i ok s = if ok then .next (((s.endMove i).toIdle i false).answerCmd c 0)
      else .next (((s.endMove i).setSess i { (s.endMove i).sess i with drain := false }).answerCmd c 6) := by
  simp only [execEvictWritten, if_neg (Nat.not_le.mpr hi), found]

theorem execSessionDrainTimeout_of_draining (hi : i < 1048576) (found : (s.draining.entries.find? fun e => e.1 == i) = some (i, c)) :
    execSessionDrainTimeout i s = if s.frozen then .next s else
      .next ((State.endDrain { s with
        cmds := s.cmds.erase c
        dropped := if s.inStep i then s.dropped ++ [(i, (s.sess i).gen)] else s.dropped } i).drained c) := by
  simp only [execSessionDrainTimeout, if_neg (Nat.not_le.mpr hi), found]

theorem State.draining_endDrain : (s.endDrain i).draining = s.draining.erase i := by
  obtain ⟨a, n, h⟩ := State.setSess_eq { s with draining := s.draining.erase i } i
    { s.sess i with state := if (s.sess i).state = 2 then 1 else (s.sess i).state }
  rw [State.endDrain, h]

/-- A boundary action that leaves a candidate ends an empty hold (R341). -/
theorem execEmptyHoldRelease_of_candidates {n : Nat} {p : Prog} {b : Batch} (prog : s.prog n = some p) (serves : p.batch = some b)
    (live : s.live = true) (held : .hold ∈ p.stalls) (found : (s.applyCmds.countMisses b s.tickNow).candidates b s.tickNow ≠ []) :
    execEmptyHoldRelease n s = .next (((s.applyCmds.countMisses b s.tickNow).selectBatch n p.step s.tickNow).updProg n
      fun p => { p.unstall .hold with stepStall := 0 }) := by
  simp [execEmptyHoldRelease, prog, serves, live, held, found]

end

end Sys2Proof.Machine
end

section
/-! The statements of spec/12_sessions.md. -/

open Sys2Proof Sys2Proof.Machine

/-- A table whose block 0 lies in two regions in use: the first keeps its mirror copy in near memory below the table, the second in block 1. -/
def twiceMirrored : State :=
  { State.reset with mem := { Mem.empty with mirrors := [⟨sessAddr 0, nearBase, 64, 1⟩, ⟨sessAddr 0, sessAddr 1, 64, 1⟩] } }

/-- Refutes O40: its premise speaks of the first region in use whose primary copy holds the block's address, where a write goes into every region in use
that it meets (R260). In `twiceMirrored` the first region meets the premise, and the second copies the valid descriptor written to session 0 onto that of
session 1. R259 admits no such regions; under it the descriptor reads back (`descriptorReadsBack_of_placed`). -/
theorem not_descriptorReadsBack : ¬ Obligations.DescriptorReadsBack := by
  intro h
  let d : Sess := { Sess.ofWords [] with valid := true }
  have outside : ∀ r, twiceMirrored.mem.mirrorOf (sessAddr 0) = some r →
      r.mirror + (sessAddr 0 - r.primary) + 64 ≤ tableBase ∨ sessAddr 1048576 ≤ r.mirror + (sessAddr 0 - r.primary) := by
    intro r first
    have named : twiceMirrored.mem.mirrorOf (sessAddr 0) = some ⟨sessAddr 0, nearBase, 64, 1⟩ := by decide
    rw [named] at first
    cases first
    decide
  obtain ⟨-, others, -⟩ := h twiceMirrored 0 d (by decide) (by decide) outside
  have kept := congrArg Sess.valid (others 1 (by decide) (by decide))
  exact absurd kept (by decide)

/-- What O40 says, where every region in use follows R259: its two copies lie in two places, so that one whose primary copy meets the table has its
mirror copy outside it. -/
theorem descriptorReadsBack_of_placed (s : State) (i : Nat) (d : Sess) (hi : i < 1048576) (words : Sess.ofWords d.words = d)
    (placed : ∀ r ∈ s.mem.mirrors, r.state ≠ 0 → r.placed = true) :
    (s.setSess i d).sess i = d ∧ (∀ j, j < 1048576 → j ≠ i → (s.setSess i d).sess j = s.sess j) ∧
      (s.setSess i d).mem = s.mem.writeWords (sessAddr i) d.words :=
  ⟨(s.sess_setSess i i d hi hi words placed).trans (if_pos rfl),
    fun j hj other => (s.sess_setSess i j d hi hj words placed).trans (if_neg other), s.mem_setSess i d⟩

/-- A part whose table is mirrored by a region in stack 0 (R322). -/
def tableMirrored : State := { State.reset with mem := { Mem.empty with mirrors := [⟨tableBase, nearBase, 0x4000000, 1⟩] } }

/-- The last descriptor of that table reads back, with values in its first and last word. -/
theorem tableMirrored_reads_back :
    let d : Sess := { Sess.ofWords [] with valid := true, gen := 65535, samp7 := 5 }
    (tableMirrored.setSess 1048575 d).sess 1048575 = d :=
  (descriptorReadsBack_of_placed tableMirrored 1048575 _ (by decide) (by decide) (by decide)).1

/-- Settles O41: the front entry reaches the sequencer as its command (`onSession_of_begins`), which waits, begins to drain its session, is answered with
its status, or does at once what its own rule says (the `arriveCmd_` lemmas). -/
theorem sessionCommands : Obligations.SessionCommands := by
  intro s q e b c d img f idle begins clean
  have reach {cmd : Nat} (named : e.cmd = cmd) {t : State} (arrives : b.arriveCmd c = t) : onSession s q cmd = .next t :=
    arrives ▸ onSession_of_begins begins named
  refine ⟨fun serving => ⟨fun cmd => ?setWaits, fun cmd valid gen alive undrained running inStep still => ?leaveDrains⟩, fun rest own => ?applied⟩
  case setWaits =>
    have stays : b.leaves c = false := State.leaves_of_other (by simp [show c.cmd = 2 from cmd])
    exact reach cmd (State.arriveCmd_of_serving stays serving)
  case leaveDrains =>
    have unheld := SMap.find?_of_any_false still.2
    have drains := State.arriveCmd_drains (s := b) ⟨valid, gen, alive, undrained⟩ cmd running inStep unheld
    refine ⟨b.beginDrain c, ?_, State.beginDrain_spec unheld⟩
    split
    next evict => exact reach evict drains
    next other => exact reach (cmd.resolve_left other) drains
  case applied =>
    have atOnce : b.AppliesAtOnce c := ⟨rest, own, clean⟩
    have refused {cmd st : Nat} (named : e.cmd = cmd) (status : b.cmdStatus c = some st) : onSession s q cmd = .next (b.answerCmd c st) :=
      reach named (State.arriveCmd_of_refused atOnce status)
    refine ⟨fun cmd failed => ?createFailed, fun cmd alive valid => ?createValid, fun cmd alive fresh => ?create,
      fun low high valid unserved => ?unserved, fun valid gen alive undrained => ?served, fun w0 w1 cmd image => ?aload, fun cmd free valid => ?adfree⟩
    case createFailed => exact refused cmd ((State.cmdStatus_create cmd).trans (if_pos failed))
    case createValid => exact refused cmd (by rw [State.cmdStatus_create cmd, if_neg (by simp [d, alive]), if_pos valid])
    case create =>
      have creates := (State.arriveCmd_create atOnce cmd alive fresh).trans (State.cmdCreate_of_alive alive)
      exact ⟨fun unfit => reach cmd (creates.trans (if_pos unfit)), fun fit => reach cmd (creates.trans (if_neg (ne_true_of_eq_false fit)))⟩
    case unserved =>
      have status := State.cmdStatus_of_unserved low high valid unserved
      exact ⟨fun cmd => refused cmd status, fun cmd => refused cmd status, fun cmd => refused cmd status, fun cmd => refused cmd status⟩
    case served =>
      have serves : d.Serves c := ⟨valid, gen, alive, undrained⟩
      refine ⟨fun cmd held => ?set, fun cmd placed => ?placed, fun cmd idle still => ?restore, fun cmd resident still => ?evict,
        fun cmd resident still => ?delete⟩
      case set => exact reach cmd ((State.arriveCmd_set atOnce serves cmd).trans (if_neg (ne_true_of_eq_false held)))
      case placed =>
        refine refused cmd ((State.cmdStatus_restore serves cmd).trans (if_neg fun free => ?_))
        exact placed.elim (· free.1) fun moved => ne_true_of_eq_false free.2 moved
      case restore =>
        have restores := State.arriveCmd_restore atOnce serves cmd idle still
        refine ⟨fun p place near kept => reach cmd ?_, fun p place near bare => reach cmd ?_, fun full => reach cmd ?_, fun p place far => ?_⟩
        · rw [restores, State.cmdRestore_near place near, if_pos kept]
        · rw [restores, State.cmdRestore_near place near, if_neg (ne_true_of_eq_false bare)]
        · exact restores.trans (State.cmdRestore_of_full full)
        · exact ⟨_, reach cmd (restores.trans (State.cmdRestore_far place far)), State.beginRead_spec { c with image := p }⟩
      case evict =>
        have evicts := State.arriveCmd_evict atOnce serves cmd resident (SMap.find?_of_any_false still.1)
        exact ⟨fun keep => reach cmd (evicts.trans (State.evictNow_keep keep)),
          fun keep host sound => ⟨_, reach cmd evicts, State.moving_evictNow_host keep host sound⟩⟩
      case delete =>
        obtain ⟨u, deletes, copy, table⟩ := State.deleteNow_spec (s := b) (c := c) alive
        have leaves := State.arriveCmd_delete atOnce serves cmd resident (SMap.find?_of_any_false still.1) (SMap.find?_of_any_false still.2)
        exact ⟨u, reach cmd (leaves.trans deletes), copy, table⟩
    case aload =>
      have loads := State.arriveCmd_adapter atOnce (.inl cmd)
      have load : c.cmd ≠ 7 := fun free => absurd (cmd.symm.trans free) (by decide)
      refine ⟨fun used => reach cmd (loads.trans (State.cmdAdapter_of_used used)), fun free => ?_⟩
      obtain ⟨u, writes, entry⟩ := State.cmdAdapter_load (s := b) (c := c) load free w0 w1 image
      exact ⟨u, reach cmd (loads.trans writes), entry⟩
    case adfree =>
      obtain ⟨u, free, entry⟩ := State.cmdAdapter_free (s := b) (c := c) cmd free valid
      exact ⟨u, reach cmd ((State.arriveCmd_adapter atOnce (.inr cmd)).trans free), entry⟩

/-- Settles O42: each end finds its session's command and does what the command's own rule says of it; an end that a freeze holds changes nothing. -/
theorem sessionEvents : Obligations.SessionEvents := by
  intro s i hi
  refine ⟨fun c data found alive => ?landed, fun c found => ?written, fun c found => ?drained, fun n p b prog serves live held found => ?hold⟩
  case landed => exact ⟨execRestoreLanded_whole hi data found alive, execRestoreLanded_failed hi data found alive⟩
  case written => exact ⟨execEvictWritten_of_moving hi true found, execEvictWritten_of_moving hi false found⟩
  case drained =>
    have ends := execSessionDrainTimeout_of_draining hi found
    exact ⟨fun running => ⟨ends.trans (if_neg (ne_true_of_eq_false running)), State.draining_endDrain⟩, fun frozen => ends.trans (if_pos frozen)⟩
  case hold => exact ⟨_, execEmptyHoldRelease_of_candidates prog serves live held found, rfl⟩
end
